-- ==== Sys2Proof/Word.lean ====
section
/-! DEFINITION. The word types of the part (R2, R35). -/

namespace Sys2Proof

/-- One byte of memory (R35). -/
abbrev Byte := BitVec 8
/-- One s register, one syllable, one doubleword (R56, R78). -/
abbrev Word := BitVec 64
/-- One v register (R78). -/
abbrev Vec := BitVec 1024
/-- One lane mask (R78). -/
abbrev Mask := BitVec 128
/-- A format tag (R33). -/
abbrev Tag := BitVec 6

end Sys2Proof
end

