-- ==== Sys2Proof/Config.lean ====
section
/-! DEFINITION. What one implementation fixes and the spec leaves open: free values, constants without a body. -/

namespace Sys2Proof

/-- What a configuration record holds (R365). The spec gives its contents and not its layout. -/
structure CfgRec where
  version : Nat
  /-- HBM4E interleave mode: 0 interleaved, 1 die-local (R173) -/
  dieLocal : Bool
  /-- the 256 pin masks, slice 0 first (R179) -/
  pins : List (BitVec 32)
  /-- the 32 presets, group 0 first (R339) -/
  presets : List Nat
  /-- the host-port CXL.cache buffers: base and length (R359) -/
  hostBuffers : List (Nat × Nat)
  /-- the power cap in watts (R369) -/
  pcap : Nat
  /-- the address and length of the Dolam image (R367) -/
  dolam : Nat × Nat
deriving DecidableEq, Repr

/-- The record that a signed image of a configuration holds; none where its signature, its owner certificate or a
field is bad (R363, R365, R366; DESIGN CHOICE, log entry 7). -/
opaque Config.parseRecord : List (BitVec 8) → Option CfgRec

/-- VERSION of such an image, whatever its other fields hold (R365, R366; DESIGN CHOICE, log entry 7). -/
opaque Config.recordVersion : List (BitVec 8) → Nat

/-- Whether the signature of such an image verifies (R363, R366; DESIGN CHOICE, log entry 7). -/
opaque Config.recordSigned : List (BitVec 8) → Bool

/-- The value of a special function where the enclosures of `Machine/Formats.lean` do not decide the rounding
(DESIGN CHOICE, log entry 6): the function's opcode and its FP32 operand. -/
opaque Config.special : Nat → BitVec 32 → BitVec 32

/-- A free byte, applied to the counter `State.fresh` or to an address (DESIGN CHOICE, log entry 5). -/
opaque Config.freeByte : Nat → BitVec 8

/-- A free word, applied to the counter `State.fresh` (DESIGN CHOICE, log entry 5). -/
opaque Config.freeWord : Nat → BitVec 64

/-- The 64-bit element that the broadcast of a 32-bit scalar gives, where R120 states elements of 32 bits and below
only (DESIGN CHOICE, log entry 5). -/
opaque Config.broadcast64 : BitVec 32 → BitVec 64

/-- The signature that the part's device key gives to a message, 132 bytes (R364, DESIGN CHOICE, log entry 7). -/
opaque Config.sign : List (BitVec 8) → List (BitVec 8)

/-- Whether a signature over a message verifies under a key (R363, R365, DESIGN CHOICE, log entry 7). -/
opaque Config.verify : List (BitVec 8) → List (BitVec 8) → List (BitVec 8) → Bool

/-- The set of a chip slice that a line's cache location lies in, under the slice's pin mask (R179, DESIGN CHOICE, log entry
8). -/
opaque Config.sliceSet : BitVec 32 → Nat → Nat

/-- The unpinned slice page in which a cached line lies, by its set and way under the slice's pin mask (R179, DESIGN CHOICE,
log entry 8). -/
opaque Config.slicePage : BitVec 32 → Nat → Nat → Nat

/-- The number of the package's device, as read in its certificate chain (R364, DESIGN CHOICE, log entry 7). -/
opaque Config.device : Nat

end Sys2Proof
end

