-- ==== Sys2Proof/Machine/Formats.lean ====
section
/-! DEFINITION. Number formats and arithmetic (02_number_formats, R33 to R50): exact values, one rounding rule,
conversion, and the special functions of R135. -/

namespace Sys2Proof

/-! ## Bits -/

/-- Bits `lo` to `lo + w - 1` of a number. -/
def bitsOf (n lo w : Nat) : Nat := n / 2 ^ lo % 2 ^ w

/-- The value of `w` bits read as two's complement (R40). -/
def signed (w n : Nat) : Int := if n % 2 ^ w < 2 ^ (w - 1) then (n % 2 ^ w : Nat) else (n % 2 ^ w : Nat) - (2 : Int) ^ w

/-- `wrap` of R44: an exact integer in `w` bits. -/
def wrapInt (w : Nat) (x : Int) : Nat := (x % (2 : Int) ^ w).toNat

/-- `ceil64` of R44. -/
def ceil64 (n : Nat) : Nat := 64 * ((n + 63) / 64)

/-- The ceiling of a quotient. -/
def ceilDiv (n d : Nat) : Nat := (n + d - 1) / d

/-! ## Exact values -/

/-- An exact value (R44): a quotient `n / d` of integers, `n` not zero, or a signed zero, an infinity or NaN. -/
inductive Num where
  | nan
  | inf (neg : Bool)
  | zero (neg : Bool)
  | fin (n : Int) (d : Nat)
deriving DecidableEq, Repr

/-- The value of an integer. -/
def Num.ofInt (n : Int) : Num := if n = 0 then .zero false else .fin n 1

/-- The sign of a value; of NaN false. -/
def Num.neg? : Num → Bool
  | .nan => false
  | .inf s => s
  | .zero s => s
  | .fin n _ => n < 0

/-- The value with its sign inverted. -/
def Num.negate : Num → Num
  | .nan => .nan
  | .inf s => .inf !s
  | .zero s => .zero !s
  | .fin n d => .fin (-n) d

/-- The magnitude. -/
def Num.abs (x : Num) : Num := if x.neg? then x.negate else x

/-- The sum `n / d + m / e` over a common denominator; an exact zero is +0 (R39). -/
def Num.addFin (n : Int) (d : Nat) (m : Int) (e : Nat) : Num :=
  let r : Int × Nat :=
    if d % e = 0 then (n + m * (d / e : Nat), d)
    else if e % d = 0 then (n * (e / d : Nat) + m, e)
    else (n * e + m * d, d * e)
  if r.1 = 0 then .zero false else .fin r.1 r.2

/-- The exact sum, with the special values of IEEE 754-2019 (R39, R46). -/
def Num.add : Num → Num → Num
  | .nan, _ => .nan
  | _, .nan => .nan
  | .inf s, .inf t => if s = t then .inf s else .nan
  | .inf s, _ => .inf s
  | _, .inf t => .inf t
  | .zero s, .zero t => .zero (s && t)
  | .zero _, y => y
  | x, .zero _ => x
  | .fin n d, .fin m e => Num.addFin n d m e

/-- The exact product (R39, R49). -/
def Num.mul : Num → Num → Num
  | .nan, _ => .nan
  | _, .nan => .nan
  | .inf _, .zero _ => .nan
  | .zero _, .inf _ => .nan
  | .inf s, y => .inf (s != y.neg?)
  | x, .inf t => .inf (x.neg? != t)
  | .zero s, y => .zero (s != y.neg?)
  | x, .zero t => .zero (x.neg? != t)
  | .fin n d, .fin m e => .fin (n * m) (d * e)

/-- The exact quotient (R124). -/
def Num.div : Num → Num → Num
  | .nan, _ => .nan
  | _, .nan => .nan
  | .inf _, .inf _ => .nan
  | .zero _, .zero _ => .nan
  | .inf s, y => .inf (s != y.neg?)
  | x, .zero t => .inf (x.neg? != t)
  | .zero s, y => .zero (s != y.neg?)
  | x, .inf t => .zero (x.neg? != t)
  | .fin n d, .fin m e => if m < 0 then .fin (-(n * e)) (d * m.natAbs) else .fin (n * e) (d * m.natAbs)

/-- `x < y` as numbers, zeros equal (R104); false with NaN. -/
def Num.lt : Num → Num → Bool
  | .nan, _ => false
  | _, .nan => false
  | .inf s, .inf t => s && !t
  | .inf s, _ => s
  | _, .inf t => !t
  | .zero _, .zero _ => false
  | .zero _, .fin m _ => 0 < m
  | .fin n _, .zero _ => n < 0
  | .fin n d, .fin m e => n * e < m * d

/-- `x = y` as numbers, zeros equal (R104); false with NaN. -/
def Num.eq : Num → Num → Bool
  | .nan, _ => false
  | _, .nan => false
  | .inf s, .inf t => s == t
  | .inf _, _ => false
  | _, .inf _ => false
  | .zero _, .zero _ => true
  | .zero _, _ => false
  | _, .zero _ => false
  | .fin n d, .fin m e => n * e == m * d

/-- `x ≤ y` as numbers (R104). -/
def Num.le (x y : Num) : Bool := x.lt y || x.eq y

/-- Whether the value is NaN. -/
def Num.isNan : Num → Bool
  | .nan => true
  | _ => false

/-! ## Square roots -/

/-- The integer square root by `fuel` steps of bisection on the bits from `bit` down. -/
def isqrtGo (n : Nat) : Nat → Nat → Nat
  | 0, r => r
  | k + 1, r => if (r + 2 ^ k) * (r + 2 ^ k) ≤ n then isqrtGo n k (r + 2 ^ k) else isqrtGo n k r

/-- The greatest integer whose square is not above `n`. -/
def isqrt (n : Nat) : Nat := isqrtGo n (n.log2 / 2 + 1) 0

/-- A quotient that rounds to any format of R33 as the square root of `n / d` does: exact where the root is
rational at 64 bits below its leading bit, otherwise strictly between the two neighbours there. -/
def sqrtQuot (n d : Nat) : Num :=
  let k := 96 + d.log2
  let m := n * 2 ^ (2 * k) / d
  let r := isqrt m
  if r * r = m && m * d = n * 2 ^ (2 * k) then .fin r (2 ^ k) else .fin (2 * r + 1) (2 * 2 ^ k)

/-- The square root (R124). -/
def Num.sqrt : Num → Num
  | .nan => .nan
  | .inf s => if s then .nan else .inf false
  | .zero s => .zero s
  | .fin n d => if n < 0 then .nan else sqrtQuot n.natAbs d

/-! ## Floating-point formats -/

/-- What the highest exponent of a format means (R38). -/
inductive Specials where
  /-- infinities and NaN, as IEEE 754 -/
  | ieee
  /-- NaN at all ones only (E4M3) -/
  | nanOnly
  /-- every pattern is finite -/
  | none
deriving DecidableEq, Repr

/-- A floating-point format (R37). -/
structure Fmt where
  ebits : Nat
  mbits : Nat
  bias : Nat
  specials : Specials
deriving DecidableEq, Repr

/-- FP32. -/
def fp32 : Fmt := ⟨8, 23, 127, .ieee⟩
/-- BF16. -/
def bf16 : Fmt := ⟨8, 7, 127, .ieee⟩
/-- FP16. -/
def fp16 : Fmt := ⟨5, 10, 15, .ieee⟩
/-- E5M2. -/
def e5m2 : Fmt := ⟨5, 2, 15, .ieee⟩
/-- E4M3. -/
def e4m3 : Fmt := ⟨4, 3, 7, .nanOnly⟩
/-- E3M2. -/
def e3m2 : Fmt := ⟨3, 2, 3, .none⟩
/-- E2M3. -/
def e2m3 : Fmt := ⟨2, 3, 1, .none⟩
/-- E2M1. -/
def e2m1 : Fmt := ⟨2, 1, 1, .none⟩

/-- The pattern of the largest finite value (R37, R38). -/
def Fmt.maxfin (f : Fmt) : Nat :=
  match f.specials with
  | .ieee => (2 ^ f.ebits - 1) * 2 ^ f.mbits - 1
  | .nanOnly => 2 ^ (f.ebits + f.mbits) - 2
  | .none => 2 ^ (f.ebits + f.mbits) - 1

/-- The sign bit. -/
def Fmt.sign (f : Fmt) (neg : Bool) : Nat := if neg then 2 ^ (f.ebits + f.mbits) else 0

/-- The canonical NaN (R38); +0 where the format has none (R45). -/
def Fmt.canonNan (f : Fmt) : Nat :=
  match f.specials with
  | .ieee => (2 ^ f.ebits - 1) * 2 ^ f.mbits + 2 ^ (f.mbits - 1)
  | .nanOnly => 2 ^ (f.ebits + f.mbits) - 1
  | .none => 0

/-- The pattern of +infinity of a format that has one. -/
def Fmt.infBits (f : Fmt) : Nat := (2 ^ f.ebits - 1) * 2 ^ f.mbits

/-- The result of an overflow (`sat` of R44). -/
def Fmt.overflow (f : Fmt) (nsat neg : Bool) : Nat :=
  match f.specials with
  | .ieee => f.sign neg + f.infBits
  | .nanOnly => if nsat then f.canonNan else f.sign neg + f.maxfin
  | .none => f.sign neg + f.maxfin

/-- The value of a pattern (R37, R38). -/
def Fmt.value (f : Fmt) (bits : Nat) : Num :=
  let neg := bits / 2 ^ (f.ebits + f.mbits) % 2 == 1
  let e := bits / 2 ^ f.mbits % 2 ^ f.ebits
  let m := bits % 2 ^ f.mbits
  let special := match f.specials with
    | .ieee => e + 1 == 2 ^ f.ebits
    | .nanOnly => e + 1 == 2 ^ f.ebits && m + 1 == 2 ^ f.mbits
    | .none => false
  if special then (if f.specials = .ieee && m == 0 then .inf neg else .nan)
  else
    let sig := if e == 0 then m else 2 ^ f.mbits + m
    let up := if e == 0 then 1 else e
    let s : Int := if neg then -1 else 1
    if sig == 0 then .zero neg
    else if f.bias + f.mbits ≤ up then .fin (s * (sig * 2 ^ (up - f.bias - f.mbits) : Nat)) 1
    else .fin (s * sig) (2 ^ (f.bias + f.mbits - up))

/-- A quotient rounded to the nearest integer, ties to even (R43). -/
def rne (n d : Nat) : Nat :=
  let q := n / d
  let r := n % d
  if d < 2 * r then q + 1 else if 2 * r = d then q + q % 2 else q

/-- The integer `l` with `2 ^ l ≤ n / d < 2 ^ (l + 1)`. -/
def floorLog2 (n d : Nat) : Int :=
  let l : Int := (n.log2 : Int) - (d.log2 : Int)
  let below := if 0 ≤ l then n < d * 2 ^ l.toNat else n * 2 ^ (-l).toNat < d
  if below then l - 1 else l

/-- The pattern, without sign, of `n / d` rounded in a format extended above its largest finite value (`round_rne`
of R44): the exponent field counts on. -/
def Fmt.roundMag (f : Fmt) (n d : Nat) : Nat :=
  let qmin : Int := 1 - (f.bias : Int) - f.mbits
  let q : Int := max qmin (floorLog2 n d - f.mbits)
  let k := if 0 ≤ q then rne n (d * 2 ^ q.toNat) else rne (n * 2 ^ (-q).toNat) d
  (q - qmin).toNat * 2 ^ f.mbits + k

/-- `cvt` of R44 into a floating-point format. -/
def Fmt.cvt (f : Fmt) (nsat : Bool) : Num → Nat
  | .nan => f.canonNan
  | .inf s => f.overflow nsat s
  | .zero s => f.sign s
  | .fin n d =>
    let r := f.roundMag n.natAbs d
    if f.maxfin < r then f.overflow nsat (n < 0) else f.sign (n < 0) + r

/-- `round32` of R44. -/
def round32 (x : Num) : BitVec 32 := BitVec.ofNat 32 (fp32.cvt false x)

/-- The FP32 value of a pattern. -/
def f32 (b : BitVec 32) : Num := fp32.value b.toNat

/-- The FP32 value in the low bits of an s register (R46). -/
def f32lo (w : Word) : Num := f32 (w.setWidth 32)

/-- The canonical NaN of FP32 (R38). -/
def nan32 : BitVec 32 := 0x7FC00000

/-- The smaller pattern by `fmin` of R103. -/
def fmin32 (x y : BitVec 32) : BitVec 32 :=
  if (f32 x).isNan || (f32 y).isNan then nan32
  else if (f32 x).lt (f32 y) then x else if (f32 y).lt (f32 x) then y
  else if (f32 x).neg? then x else y

/-- The larger pattern by `fmax` of R103. -/
def fmax32 (x y : BitVec 32) : BitVec 32 :=
  if (f32 x).isNan || (f32 y).isNan then nan32
  else if (f32 x).lt (f32 y) then y else if (f32 y).lt (f32 x) then x
  else if (f32 x).neg? then y else x

/-! ## Integers -/

/-- A value rounded to an integer, ties to even, and saturated into `lo` to `hi` (R44, R45). -/
def cvtInt (lo hi : Int) : Num → Int
  | .nan => 0
  | .inf s => if s then lo else hi
  | .zero _ => 0
  | .fin n d => max lo (min hi (if n < 0 then -(rne n.natAbs d : Int) else rne n.natAbs d))

/-- An element format: floating point, or an integer of a width and signedness. -/
inductive Elem where
  | float (f : Fmt)
  | int (w : Nat) (sgn : Bool)
deriving DecidableEq, Repr

/-- The element format of a tag (R33); the bits of the raw tag, of a row-control word and of a pair count as
unsigned integers. -/
def elemOf (t : Nat) : Elem :=
  if t = 1 then .float bf16 else if t = 2 then .float fp16
  else if t = 3 || t = 31 then .float fp32
  else if 4 ≤ t && t ≤ 6 then .float e4m3
  else if 7 ≤ t && t ≤ 9 then .float e5m2
  else if 10 ≤ t && t ≤ 13 then .float e3m2
  else if 14 ≤ t && t ≤ 17 then .float e2m3
  else if 18 ≤ t && t ≤ 21 then .float e2m1
  else if 22 ≤ t && t ≤ 24 then .int 8 true
  else if 25 ≤ t && t ≤ 28 then .int 4 true
  else if t = 29 then .int 32 true else if t = 32 then .int 16 true
  else if t = 33 then .int 8 false else if t = 34 then .int 16 false
  else if t = 36 then .int 64 false else .int 32 false

/-- The element width in a register (R33); raw counts as 32 (R117). -/
def tagWidth (t : Nat) : Nat :=
  if t = 1 || t = 2 || t = 32 || t = 34 then 16
  else if (4 ≤ t && t ≤ 17) || (22 ≤ t && t ≤ 24) || t = 33 then 8
  else if (18 ≤ t && t ≤ 21) || (25 ≤ t && t ≤ 28) then 4
  else if t = 36 then 64 else 32

/-- Whether the tag is a 6-bit format, packed four to three bytes in memory (R35). -/
def tag6 (t : Nat) : Bool := 10 ≤ t && t ≤ 17

/-- The bits of one element in the packed layout of memory (R35, R36). -/
def packedBits (t : Nat) : Nat := if tag6 t then 6 else tagWidth t

/-- The bytes that `n` packed elements of a tag occupy (R36). -/
def packedBytes (t n : Nat) : Nat := if tag6 t then 3 * ((n + 3) / 4) else (n * packedBits t + 7) / 8

/-- The bytes that a whole v register of a tag occupies in memory (R195, R196). -/
def regBytes (t : Nat) : Nat := if tag6 t then 96 else 128

/-- The bounds of an integer format (R40). -/
def intBounds (w : Nat) (sgn : Bool) : Int × Int :=
  if sgn then (-(2 : Int) ^ (w - 1), (2 : Int) ^ (w - 1) - 1) else (0, (2 : Int) ^ w - 1)

/-- The value of an element without its scale (R37, R40, R47). A 6-bit element ignores the bits above it. -/
def elemValue (t bits : Nat) : Num :=
  match elemOf t with
  | .float f => f.value (bits % 2 ^ (1 + f.ebits + f.mbits))
  | .int w sgn => Num.ofInt (if sgn then signed w bits else (bits % 2 ^ w : Nat))

/-- The integer value of an element of an integer tag (R40). -/
def elemInt (t bits : Nat) : Int :=
  match elemOf t with
  | .float _ => 0
  | .int w sgn => if sgn then signed w bits else (bits % 2 ^ w : Nat)

/-- `cvt` of R44 into the format of a tag, as the bits of the element. -/
def cvtTag (t : Nat) (nsat : Bool) (x : Num) : Nat :=
  match elemOf t with
  | .float f => f.cvt nsat x
  | .int w sgn => wrapInt w (cvtInt (intBounds w sgn).1 (intBounds w sgn).2 x)

/-- Class F, I, N, A and A8 of R121. -/
def classF (t : Nat) : Bool := t == 31
/-- Class I of R121. -/
def classI (t : Nat) : Bool := [22, 29, 30, 32, 33, 34].contains t
/-- Class N of R121. -/
def classN (t : Nat) : Bool := classF t || classI t
/-- Class A of R121. -/
def classA (t : Nat) : Bool := t ≤ 36
/-- Class A8 of R121. -/
def classA8 (t : Nat) : Bool := t ≤ 36 && tagWidth t != 4
/-- Integer tags whose elements are signed (R121). -/
def tagSigned (t : Nat) : Bool := t == 22 || t == 29 || t == 32

/-! ## Sums and the pair order -/

/-- The sum of products or elements as R49 states it: any NaN, or both infinities, gives NaN; an exact zero is
-0 only when every addend is -0. -/
def exactSum : List Num → Num
  | [] => .zero false
  | [x] => x
  | x :: xs => x.add (exactSum xs)

/-- `vi_before` of R42 on pairs (VALUE, INDEX). -/
def viBefore (x y : BitVec 32 × Nat) : Bool :=
  if (f32 x.1).isNan && (f32 y.1).isNan then x.2 < y.2
  else if (f32 x.1).isNan then false
  else if (f32 y.1).isNan then true
  else if (f32 y.1).lt (f32 x.1) then true
  else if (f32 x.1).lt (f32 y.1) then false
  else x.2 < y.2

/-- A pair into a list in rank order, behind the pairs of equal rank. -/
def viInsert (x : BitVec 32 × Nat) : List (BitVec 32 × Nat) → List (BitVec 32 × Nat)
  | [] => [x]
  | y :: ys => if viBefore x y then x :: y :: ys else y :: viInsert x ys

/-- The filler of R138. -/
def viFiller : BitVec 32 × Nat := (nan32, 0xFFFFFFFF)

/-! ## Special functions (R135)

Each function is enclosed between two quotients of scale `2 ^ fx`; where both ends round alike, that is the
correctly rounded value. -/

/-- The scale of the enclosures. -/
def fx : Nat := 640

/-- Fixed-point product, rounded down. -/
def fmulx (a b : Int) : Int := a * b / (2 : Int) ^ fx

/-- The sum of `x ^ i / i!` from the term `t` at index `i`, `k` terms. -/
def expGo (x : Int) : Nat → Nat → Int → Int → Int
  | 0, _, _, acc => acc
  | k + 1, i, t, acc => expGo x k (i + 1) (fmulx t x / (i + 1 : Nat)) (acc + t)

/-- The sum of `1 / (i 2 ^ i)`: ln 2. -/
def ln2Go : Nat → Nat → Int → Int
  | 0, _, acc => acc
  | k + 1, i, acc => ln2Go k (i + 1) (acc + (2 : Int) ^ fx / (i * 2 ^ i : Nat))

/-- ln 2 at scale `fx`. -/
def ln2x : Int := ln2Go (fx + 8) 1 0

/-- e^x for `x` at scale `fx`: a multiplier at scale `fx` and a power of two. -/
def expx (x : Int) : Int × Int :=
  let k := x / ln2x
  (expGo (x - k * ln2x) 160 0 ((2 : Int) ^ fx) 0, k)

/-- An integer at scale `fx - shift`, as a value. -/
def ofFx (n : Int) (up : Int) : Num :=
  if n = 0 then .zero false
  else if (fx : Int) ≤ up then .fin (n * (2 : Int) ^ (up - fx).toNat) 1
  else .fin n (2 ^ ((fx : Int) - up).toNat)

/-- The bits of precision given away to the errors of the fixed-point sums. -/
def slack : Int := (2 : Int) ^ 300

/-- The FP32 value at scale `fx`, rounded down. -/
def toFx : Num → Int
  | .fin n d => n * (2 : Int) ^ fx / d
  | _ => 0

/-- The rounding that both ends of an enclosure agree on, or a free value (DESIGN CHOICE, log entry 6). -/
def decided (opc : Nat) (arg : BitVec 32) (lo hi : Num) : BitVec 32 :=
  if round32 lo = round32 hi then round32 lo else Config.special opc arg

/-- An enclosure whose middle is `n` at scale `fx` times `2 ^ up`. -/
def near (opc : Nat) (arg : BitVec 32) (n up : Int) : BitVec 32 :=
  decided opc arg (ofFx (n - slack) up) (ofFx (n + slack) up)

/-- e^x of an exact FP32 value, rounded (R135). -/
def exp32 (arg : BitVec 32) : BitVec 32 :=
  match f32 arg with
  | .nan => nan32
  | .inf s => if s then 0 else 0x7F800000
  | .zero _ => 0x3F800000
  | .fin n d =>
    if (Num.fin n d).lt (.fin (-200) 1) then 0
    else if (Num.fin 200 1).lt (.fin n d) then 0x7F800000
    else let r := expx (toFx (.fin n d)); near 0x70 arg r.1 r.2

/-- `atanh`-series of ln: the sum of `t ^ (2 i + 1) / (2 i + 1)`. -/
def lnGo (t2 : Int) : Nat → Nat → Int → Int → Int
  | 0, _, _, acc => acc
  | k + 1, i, t, acc => lnGo t2 k (i + 2) (fmulx t t2) (acc + t / (i : Nat))

/-- ln of a quotient at scale `fx`. -/
def lnx (n d : Nat) : Int :=
  let e := floorLog2 n d
  -- m = n / d / 2 ^ e lies in [1, 2); t = (m - 1) / (m + 1)
  let mn := if 0 ≤ e then n else n * 2 ^ (-e).toNat
  let md := if 0 ≤ e then d * 2 ^ e.toNat else d
  let t : Int := ((mn : Int) - md) * (2 : Int) ^ fx / (mn + md : Nat)
  2 * lnGo (fmulx t t) 220 1 t 0 + e * ln2x

/-- ln x of an exact positive FP32 value, rounded (R135). -/
def log32 (arg : BitVec 32) : BitVec 32 :=
  match f32 arg with
  | .nan => nan32
  | .inf s => if s then nan32 else 0x7F800000
  | .zero _ => 0xFF800000
  | .fin n d =>
    if n < 0 then nan32
    else if n = d then 0
    else near 0x71 arg (lnx n.natAbs d) 0

/-- `theta` to the power `-2 i / hd`, rounded (R271). -/
def pow32 (theta : BitVec 32) (i hd : Nat) : BitVec 32 :=
  if i = 0 then 0x3F800000
  else
    match f32 theta with
    | .nan => nan32
    | .inf _ => 0
    | .zero _ => 0x7F800000
    | .fin n d =>
      if n < 0 then nan32
      else
        let x := -((2 * i : Nat) * lnx n.natAbs d) / (hd : Int)
        if x < -(200 * (2 : Int) ^ fx) then 0
        else if 200 * (2 : Int) ^ fx < x then 0x7F800000
        else let r := expx x; near (0x1000000 + 512 * i + hd) theta r.1 r.2

/-- e^-|x| at scale `fx` for an exact value of magnitude at most 200. -/
def expNeg (x : Int) : Int :=
  let r := expx (-(x.natAbs : Int))
  r.1 / (2 : Int) ^ (-r.2).toNat

/-- tanh x, rounded (R135). -/
def tanh32 (arg : BitVec 32) : BitVec 32 :=
  match f32 arg with
  | .nan => nan32
  | .inf s => if s then 0xBF800000 else 0x3F800000
  | .zero _ => arg
  | .fin n d =>
    if (Num.fin 100 1).lt (Num.fin n d).abs then (if n < 0 then 0xBF800000 else 0x3F800000)
    else
      let q := expNeg (2 * toFx (.fin n d))
      let r := ((2 : Int) ^ fx - q) * (2 : Int) ^ fx / ((2 : Int) ^ fx + q)
      near 0x74 arg (if n < 0 then -r else r) 0

/-- x / (1 + e^-x), rounded (R135). -/
def silu32 (arg : BitVec 32) : BitVec 32 :=
  match f32 arg with
  | .nan => nan32
  | .inf s => if s then 0x80000000 else 0x7F800000
  | .zero _ => arg
  | .fin n d =>
    if (Num.fin n d).lt (.fin (-200) 1) then 0x80000000
    else if (Num.fin 200 1).lt (.fin n d) then arg
    else
      let x := toFx (.fin n d)
      let q := expNeg x
      -- n ≥ 0: x / (1 + q); n < 0: x q / (1 + q)
      let r := (if n < 0 then fmulx x q else x) * (2 : Int) ^ fx / ((2 : Int) ^ fx + q)
      near 0x75 arg r 0

/-- The alternating sum of `x ^ (2 i + 1) / (i! 2 ^ i (2 i + 1))`. -/
def phiGo (x2 : Int) : Nat → Nat → Int → Int → Int
  | 0, _, _, acc => acc
  | k + 1, i, t, acc => phiGo x2 k (i + 1) (-(fmulx t x2) / (2 * (i + 1) : Nat)) (acc + t / (2 * i + 1 : Nat))

/-- The sum of `(-1) ^ i / ((2 i + 1) z ^ (2 i + 1))`: arctan (1 / z). -/
def atanGo (z : Nat) : Nat → Nat → Int → Int → Int
  | 0, _, _, acc => acc
  | k + 1, i, t, acc => atanGo z k (i + 1) (-(t / (z * z : Nat))) (acc + t / (2 * i + 1 : Nat))

/-- pi at scale `fx`, by Machin's formula. -/
def pix : Int :=
  4 * (4 * atanGo 5 300 0 ((2 : Int) ^ fx / 5) 0 - atanGo 239 120 0 ((2 : Int) ^ fx / 239) 0)

/-- 1 / sqrt(2 pi) at scale `fx`. -/
def invSqrt2Pi : Int := (isqrt ((2 : Int) ^ (3 * fx) / (2 * pix)).toNat : Nat)

/-- The alternating sum of `x ^ i / i!` over every second `i`, from the term `t` at index `i`. -/
def trigGo (x2 : Int) : Nat → Nat → Int → Int → Int
  | 0, _, _, acc => acc
  | k + 1, i, t, acc => trigGo x2 k (i + 2) (-(fmulx t x2) / ((i + 1) * (i + 2) : Nat)) (acc + t)

/-- An angle at scale `fx` less its whole turns. -/
def turn (x : Int) : Int := x - x / (2 * pix) * (2 * pix)

/-- cos of an angle, rounded (R271). -/
def cos32 (arg : BitVec 32) : BitVec 32 :=
  match f32 arg with
  | .nan | .inf _ => nan32
  | .zero _ => 0x3F800000
  | .fin n d =>
    let r := turn (toFx (.fin n d))
    near 0x101 arg (trigGo (fmulx r r) 110 0 ((2 : Int) ^ fx) 0) 0

/-- sin of an angle, rounded (R271). -/
def sin32 (arg : BitVec 32) : BitVec 32 :=
  match f32 arg with
  | .nan | .inf _ => nan32
  | .zero _ => arg
  | .fin n d =>
    let r := turn (toFx (.fin n d))
    near 0x102 arg (trigGo (fmulx r r) 110 1 r 0) 0

/-- x Phi(x), rounded (R135). -/
def gelu32 (arg : BitVec 32) : BitVec 32 :=
  match f32 arg with
  | .nan => nan32
  | .inf s => if s then 0x80000000 else 0x7F800000
  | .zero _ => arg
  | .fin n d =>
    if (Num.fin n d).lt (.fin (-16) 1) then 0x80000000
    else if (Num.fin 16 1).lt (.fin n d) then arg
    else
      let x := toFx (.fin n d)
      let phi := (2 : Int) ^ (fx - 1) + fmulx invSqrt2Pi (phiGo (fmulx x x) 900 0 x 0)
      near 0x76 arg (fmulx x phi) 0

/-- 1 / x, rounded once (R135). -/
def rcp32 (arg : BitVec 32) : BitVec 32 := round32 (Num.div (.fin 1 1) (f32 arg))

/-- 1 / sqrt x, to be rounded once. -/
def Num.rsqrt : Num → Num
  | .nan => .nan
  | .inf s => if s then .nan else .zero false
  | .zero s => .inf s
  | .fin n d => if n < 0 then .nan else Num.sqrt (.fin d n.natAbs)

/-- 1 / sqrt x, rounded once (R135). -/
def rsqrt32 (arg : BitVec 32) : BitVec 32 := round32 (f32 arg).rsqrt

/-! ## Checksums (R240, R335) -/

/-- CRC-64 with the ECMA-182 polynomial over one byte, the high bit first (R240). -/
def crc64Byte (crc : BitVec 64) (b : Byte) : BitVec 64 :=
  (List.range 8).foldl (fun c _ => if c.getLsbD 63 then (c <<< 1) ^^^ 0x42F0E1EBA9EA3693 else c <<< 1)
    (crc ^^^ (b.setWidth 64 <<< 56))

/-- The fingerprint of an element: initial value 0, no reflection, no final exclusive-or (R240). -/
def crc64 (bs : List Byte) : BitVec 64 := bs.foldl crc64Byte 0

/-- CRC-32C over one byte, reflected as in RFC 3720. -/
def crc32cByte (crc : BitVec 32) (b : Byte) : BitVec 32 :=
  (List.range 8).foldl (fun c _ => if c.getLsbD 0 then (c >>> 1) ^^^ 0x82F63B78 else c >>> 1) (crc ^^^ b.setWidth 32)

/-- CRC-32C continued over bytes; it starts from all ones. -/
def crc32cGo (crc : BitVec 32) (bs : List Byte) : BitVec 32 := bs.foldl crc32cByte crc

/-- CRC-32C of bytes (RFC 3720): the final value is complemented. -/
def crc32c (bs : List Byte) : BitVec 32 := ~~~(crc32cGo (BitVec.allOnes 32) bs)

end Sys2Proof
end

