-- ==== Sys2Proof/Syntax.lean ====
section
/-! DEFINITION. The one syntax of the part: every row of the opcode table is a constructor of `Instr`
(R71 to R76 for the syllables of a bundle, 95_what_each_step_holds for the events of the device). -/

namespace Sys2Proof

/-- The five slot classes (R71). -/
inductive Cls where
  | A | S | V | M | C
deriving DecidableEq, Repr

/-- The fields of a syllable but its opcode (R56). -/
structure Syl where
  hold : Bool
  ga : BitVec 3
  na : Bool
  gb : BitVec 3
  nb : Bool
  ch : BitVec 2
  lit : Bool
  st : BitVec 2
  fem : BitVec 5
  e : BitVec 7
  d : BitVec 7
  c : BitVec 7
  b : BitVec 7
  a : BitVec 7
deriving DecidableEq, Repr

/-- The three masters of the package's management (R359, R360). -/
inductive Master where
  | host | board | fabric
deriving DecidableEq, Repr

/-- Who writes a management register (R362): the management core, or a master. -/
inductive Writer where
  | core | master (m : Master)
deriving DecidableEq, Repr

/-- Where an uncorrectable memory error is found (R25). -/
inductive ErrorSite where
  /-- found by the access of a context, or in its scratchpad, spill area, tiles or saved context -/
  | task (c : Nat)
  /-- found in state that every task of the plot shares -/
  | plot (p : Nat)
  /-- found by an engine that no task is charged with -/
  | device
deriving DecidableEq, Repr

/-- Where an exit notice comes from: the own notice queue of a die, or another package (R266, R353). -/
inductive NoticeSource where
  | own (die : Nat)
  | far (pkg : Nat) (notice : List Byte)
deriving DecidableEq, Repr

/-- The contribution of a participant of a collective that lies in another package (R246, R355). -/
structure FarPart where
  rank : Nat
  /-- 0 coll, 1 coll.topk, 2 a2a -/
  kind : Nat
  /-- field D of its syllable -/
  d : Nat
  /-- the words of its descriptor -/
  params : List Word
  /-- the bytes of its source buffer -/
  source : List Byte
  /-- the bytes of its ROUTE list (a2a) -/
  route : List Byte
  /-- a failure there ends the whole with ERR -/
  fails : Bool
deriving DecidableEq, Repr

/-- What a request of another package asks for (R354). -/
inductive FarOp where
  | read (len : Nat)
  | write (data : List Byte)
  /-- bytes of one line by their offset in it (a place of a store buffer) -/
  | cells (data : List (Nat × Byte))
  /-- an atomic by its opcode, plus 0x100 on a sync page and 0x200 for signed order; 0x30 for `ldfe` with consume, 0x31
  for a forced `stfe` -/
  | atomic (op : Nat) (size : Nat) (x y : Word)
  | syncRead (size : Nat)
  | syncWrite (size : Nat) (x : Word)
  | setFull
  | setEmpty
  /-- a write that sets its lines full, as the Drill makes on a sync page (R185) -/
  | fill (data : List Byte)
  /-- a write that turns its lines empty, as the acceptance engine copies an empty line (R278) -/
  | vacate (data : List Byte)
  /-- the word of a sigc: written, and its line set full whatever it was (R323) -/
  | signal (x : Word)
deriving DecidableEq, Repr

/-- A request that arrives from another package (R354). -/
structure FarRequest where
  pkg : Nat
  tag : Nat
  addr : Nat
  op : FarOp
  /-- the group that it arrives on -/
  group : Nat
  /-- serving it meets an uncorrectable error -/
  uncorrectable : Bool
deriving DecidableEq, Repr

/-- The reply to a request of this package (R354). -/
inductive FarReply where
  | data (bytes : List Byte)
  | done
  | stillEmpty
  /-- sent again by another path (R352) -/
  | retry
  /-- the cause of the fault record: 1, 5 or 7 -/
  | fault (cause : Nat)
deriving DecidableEq, Repr

/-- The one syntax: a syllable with the fields of R56, or an event of the device with what the event carries. -/
inductive Instr where
  /-- R71 -/
  | nop (k : Cls) (x : Syl)
  | lea (x : Syl) -- R106
  | lda (x : Syl) -- R195
  | ldav (x : Syl) -- R195
  | sta (x : Syl) -- R196
  | staV (x : Syl) -- R196
  | mark (x : Syl) -- R197
  | pref (x : Syl) -- R198
  | ldr (x : Syl) -- R199
  | amoadd (x : Syl) -- R201
  | amoswap (x : Syl) -- R201
  | amocas (x : Syl) -- R201
  | amomin (x : Syl) -- R201
  | amomax (x : Syl) -- R201
  | amoand (x : Syl) -- R201
  | amoor (x : Syl) -- R201
  | amoxor (x : Syl) -- R201
  | ldfe (x : Syl) -- R202
  | stfe (x : Syl) -- R202
  | setf (x : Syl) -- R202
  | sete (x : Syl) -- R202
  | fence (x : Syl) -- R204
  | fenceRel (x : Syl) -- R204
  | fenceAcq (x : Syl) -- R204
  | fwait (x : Syl) -- R205
  | shbind (x : Syl) -- R206
  | shbindw (x : Syl) -- R206
  | shunb (x : Syl) -- R206
  | binds (x : Syl) -- R227
  | unbs (x : Syl) -- R229
  | tlbinvPage (x : Syl) -- R207
  | tlbinvRange (x : Syl) -- R207
  | tlbinvTenant (x : Syl) -- R207
  | tlbinvAll (x : Syl) -- R207
  | add (x : Syl) -- R94
  | sub (x : Syl) -- R94
  | mul (x : Syl) -- R94
  | mulh (x : Syl) -- R94
  | mulhu (x : Syl) -- R94
  | shadd (x : Syl) -- R94
  | sext (x : Syl) -- R94
  | zext (x : Syl) -- R94
  | min (x : Syl) -- R94
  | minu (x : Syl) -- R94
  | max (x : Syl) -- R94
  | maxu (x : Syl) -- R94
  | div (x : Syl) -- R95
  | divu (x : Syl) -- R95
  | rem (x : Syl) -- R95
  | remu (x : Syl) -- R95
  | and (x : Syl) -- R96
  | or (x : Syl) -- R96
  | xor (x : Syl) -- R96
  | andn (x : Syl) -- R96
  | orn (x : Syl) -- R96
  | shl (x : Syl) -- R96
  | shr (x : Syl) -- R96
  | sar (x : Syl) -- R96
  | rol (x : Syl) -- R96
  | ror (x : Syl) -- R96
  | bext (x : Syl) -- R97
  | bins (x : Syl) -- R97
  | clz (x : Syl) -- R98
  | ctz (x : Syl) -- R98
  | popc (x : Syl) -- R98
  | mov (x : Syl) -- R99
  | li (x : Syl) -- R99
  | sel (x : Syl) -- R99
  | cmpeq (x : Syl) -- R100
  | cmpne (x : Syl) -- R100
  | cmplt (x : Syl) -- R100
  | cmpltu (x : Syl) -- R100
  | cmple (x : Syl) -- R100
  | cmpleu (x : Syl) -- R100
  | pand (x : Syl) -- R101
  | por (x : Syl) -- R101
  | pxor (x : Syl) -- R101
  | pandn (x : Syl) -- R101
  | fadd (x : Syl) -- R102
  | fsub (x : Syl) -- R102
  | fmul (x : Syl) -- R102
  | ffma (x : Syl) -- R102
  | fmin (x : Syl) -- R103
  | fmax (x : Syl) -- R103
  | fcmpeq (x : Syl) -- R104
  | fcmplt (x : Syl) -- R104
  | fcmple (x : Syl) -- R104
  | fcvtfi (x : Syl) -- R105
  | fcvtif (x : Syl) -- R105
  | vadd (x : Syl) -- R123
  | vsub (x : Syl) -- R123
  | vmul (x : Syl) -- R123
  | vdiv (x : Syl) -- R123
  | vmin (x : Syl) -- R123
  | vmax (x : Syl) -- R123
  | vfma (x : Syl) -- R123
  | vclamp (x : Syl) -- R123
  | vsqrt (x : Syl) -- R123
  | vabs (x : Syl) -- R123
  | vneg (x : Syl) -- R123
  | viadd (x : Syl) -- R125
  | visub (x : Syl) -- R125
  | vimul (x : Syl) -- R125
  | vsadd (x : Syl) -- R125
  | vssub (x : Syl) -- R125
  | vand (x : Syl) -- R126
  | vor (x : Syl) -- R126
  | vxor (x : Syl) -- R126
  | vandn (x : Syl) -- R126
  | vshl (x : Syl) -- R126
  | vshr (x : Syl) -- R126
  | vsar (x : Syl) -- R126
  | vcmpeq (x : Syl) -- R127
  | vcmpne (x : Syl) -- R127
  | vcmplt (x : Syl) -- R127
  | vcmple (x : Syl) -- R127
  | vcmpun (x : Syl) -- R127
  | kand (x : Syl) -- R128
  | kor (x : Syl) -- R128
  | kxor (x : Syl) -- R128
  | knot (x : Syl) -- R128
  | kpopc (x : Syl) -- R128
  | vsel (x : Syl) -- R129
  | vmov (x : Syl) -- R129
  | vbcast (x : Syl) -- R129
  | vext (x : Syl) -- R129
  | vtag (x : Syl) -- R129
  | vcvt (x : Syl) -- R130
  | vquant (x : Syl) -- R131
  | vamax (x : Syl) -- R131
  | vpair (x : Syl) -- R132
  | vsplit (x : Syl) -- R132
  | vredsum (x : Syl) -- R133
  | vredmax (x : Syl) -- R133
  | vredmin (x : Syl) -- R133
  | vscan (x : Syl) -- R134
  | vexp (x : Syl) -- R135
  | vlog (x : Syl) -- R135
  | vrcp (x : Syl) -- R135
  | vrsqrt (x : Syl) -- R135
  | vtanh (x : Syl) -- R135
  | vsilu (x : Syl) -- R135
  | vgelu (x : Syl) -- R135
  | vperm (x : Syl) -- R136
  | vrot (x : Syl) -- R136
  | vzip (x : Syl) -- R136
  | vunzip (x : Syl) -- R136
  | vcompress (x : Syl) -- R137
  | vexpand (x : Syl) -- R137
  | vtopk (x : Syl) -- R138
  | vprune (x : Syl) -- R139
  | vtopkm (x : Syl) -- R145
  | vprunem (x : Syl) -- R145
  | vcmpm (x : Syl) -- R145
  | vredm (x : Syl) -- R145
  | vgathm (x : Syl) -- R145
  | alease (x : Syl) -- R151
  | aleaseTry (x : Syl) -- R151
  | arel (x : Syl) -- R152
  | aidx (x : Syl) -- R154
  | abind (x : Syl) -- R155
  | ascl (x : Syl) -- R156
  | amul (x : Syl) -- R158
  | amac (x : Syl) -- R158
  | amulm (x : Syl) -- R158
  | amacm (x : Syl) -- R158
  | azero (x : Syl) -- R162
  | acvt (x : Syl) -- R162
  | amove (x : Syl) -- R162
  | astore (x : Syl) -- R163
  | apred (x : Syl) -- R161
  | await (x : Syl) -- R165
  | copy (x : Syl) -- R237
  | drill (x : Syl) -- R238
  | drw (x : Syl) -- R242
  | drain (x : Syl) -- R235
  | drainAll (x : Syl) -- R235
  | coll (x : Syl) -- R248
  | collTopk (x : Syl) -- R248
  | a2a (x : Syl) -- R250
  | sample (x : Syl) -- R252
  | glean (x : Syl) -- R274
  | br (x : Syl) -- R108
  | bri (x : Syl) -- R108
  | call (x : Syl) -- R108
  | ret (x : Syl) -- R108
  | loop (x : Syl) -- R110
  | loopl (x : Syl) -- R110
  | bar (x : Syl) -- R111
  | phase (x : Syl) -- R112
  | endTask (x : Syl) -- R113
  | csrr (x : Syl) -- R114
  | csrw (x : Syl) -- R114
  | csrs (x : Syl) -- R114
  | csrc (x : Syl) -- R114
  | jtab (x : Syl) -- R259
  | jtabRes (x : Syl) -- R259
  | trap (x : Syl) -- R333
  | rett (x : Syl) -- R333
  | yield (x : Syl) -- R333
  | synct (x : Syl) -- R333
  | launch (x : Syl) -- R320
  | grow (x : Syl) -- R321
  | waitc (x : Syl) -- R322
  | sigc (x : Syl) -- R323
  | swap (x : Syl) -- R325
  | bget (x : Syl) -- R297
  | bgive (x : Syl) -- R298
  | topup (x : Syl) -- R299
  | cwait (x : Syl) -- R233
  | ctest (x : Syl) -- R234
  | rcupdF32 (x : Syl) -- R262
  | rcupdBf16 (x : Syl) -- R262
  | rcupdLd (x : Syl) -- R261
  | rcupdSt (x : Syl) -- R261
  | harrow (x : Syl) -- R263
  | furrow (x : Syl) -- R264
  | xnote (x : Syl) -- R266
  | route (x : Syl) -- R282
  | rdcnt (x : Syl) -- R300
  | headerAloneBundle (h : Word) -- R66
  | instructionFetchFault (addr : Word) -- R52
  | resultLand (c : Nat) -- R81
  | dividerFill (c : Nat) -- R95
  | shadowLatchDeliver (c : Nat) -- R331
  | rangeGroupComplete (c : Nat) (ext : List Host.Cell) -- R142
  | lateAccessFault (c : Nat) -- R190
  | loadPerform (c n : Nat) -- R195
  | storePerform (c : Nat) -- R196
  | storeBufferWriteback (c : Nat) -- R191
  | atomicPerform (c : Nat) -- R201
  | syncOpPerform (c : Nat) -- R202
  | yieldTaken (c : Nat) -- R291
  | contextSaveComplete (c : Nat) -- R335
  | contextResume (c : Nat) -- R27
  | yieldDistanceFault (c : Nat) -- R85
  | taskDone (c : Nat) -- R113
  | launchRecordRead (slot : Nat) (ext : List Host.Cell) -- R314
  | groupPlace (plot : Nat) (ext : List Host.Cell) -- R316
  | barrierComplete (slot group : Nat) -- R111
  | sigcWrite (c : Nat) -- R323
  | gangAbort (c : Nat) (code cause : Nat) (addr : Nat) -- R337
  | acreCommandExecute (plot : Nat) (ext : List Host.Cell) -- R148
  | aleaseGrant (plot : Nat) -- R151
  | leaseEntryFree (plot entry : Nat) -- R152
  | amoveFill (c : Nat) -- R162
  | acreQuantumEnd (plot : Nat) -- R153
  | tlbinvComplete (c : Nat) -- R208
  | streamReadAhead (c q : Nat) (ext : List Host.Cell) -- R228
  | streamWriteBehind (c q : Nat) -- R228
  | drillCommandStart (tiller : Nat) (ext : List Host.Cell) -- R236
  | drillElementTransfer (tiller n : Nat) (ext : List Host.Cell) -- R241
  | chunkComplete (tiller n chunk : Nat) -- R217
  | furrowExecute (tiller n : Nat) (ext : List Host.Cell) -- R264
  | collectiveInstanceStart (group inst : Nat) (far : List FarPart) (ext : List Host.Cell) -- R246
  | collectiveInstanceComplete (group inst : Nat) (far : List FarPart) (ext : List Host.Cell) -- R251
  | sampleServe (die : Nat) (ext : List Host.Cell) -- R252
  | slotTableWrite (w : Writer) (slot : Nat) (words : List Word) -- R309
  | preemptRequest (c : Nat) -- R84
  | uncorrectableError (site : ErrorSite) -- R25
  | gridFault (slot : Nat) (cause : Nat) -- R15
  | probeSend (c : Nat) -- R336
  | probeReceive (n : Nat) -- R336
  | waitProbeReport (n : Nat) -- R336
  | planeFlip (plot : Nat) -- R325
  | loaderGo (w : Writer) (plot : Nat) -- R370
  | exitNoticeArrive (src : NoticeSource) -- R266
  | noticeDeliveryFailure (die : Nat) (cause : Nat) -- R266
  | gleanerServe (die : Nat) (ext : List Host.Cell) -- R271
  | fillRequestReraise (c : Nat) -- R270
  | gleanExpand (die : Nat) -- R274
  | acceptanceRequest (die port : Nat) (ext : List Host.Cell) -- R278
  | hotExpertWindowStart (die : Nat) -- R302
  | caporeqGo (w : Writer) (g : Nat) (v : Word) -- R344
  | laneFailure (g lane : Nat) -- R349
  | capoDrainBegin (g : Nat) -- R345
  | capoDrainComplete (g : Nat) -- R346
  | capoDrainLimit (g : Nat) -- R346
  | capoWithdrawComplete (g : Nat) -- R347
  | capoTrainSuccess (g : Nat) -- R349
  | capoTrainFail (g : Nat) -- R349
  | flitReceive (g seq : Nat) (good last : Bool) -- R350
  | flitAckReceive (g seq : Nat) -- R350
  | pathNoticeReceive (pkg g : Nat) (add : Bool) -- R352
  | pathSetSwitch (pkg : Nat) -- R351
  | remoteRequestArrive (r : FarRequest) -- R354
  | remoteReplyArrive (tag : Nat) (r : FarReply) -- R354
  | retryResponse (tag : Nat) -- R352
  | requestTimeout (tag : Nat) -- R354
  | hostBar2Access (addr : Nat) (data : Option (List Byte)) (len : Nat) -- R359
  | hostBar4Fill (addr : Nat) (data : List Byte) -- R359
  | ownclaimClaim (m : Master) -- R361
  | ownclaimHandover (m : Master) (target : BitVec 2) -- R361
  | ownclaimAccept (m : Master) -- R361
  | ownclaimRelease (m : Master) -- R361
  | handoverLapse -- R361
  | ownerChannelFail (m : Master) -- R361
  | heartbeatWrite (v : Word) -- R361
  | heartbeatTimeout -- R361
  | packageNumberAssign (n : Nat) (routes : List (Nat × List Nat)) -- R356
  | quoteNonceWrite (w : Writer) (nonce : List Byte) -- R364
  | cfgcmdStore (w : Writer) (v : Word) -- R366
  | cfgcmdStoreComplete (nvOk : Bool) -- R366
  | rctlReset (w : Writer) (v : Word) -- R367
  | packageReset (failing : Nat) -- R367
  | clockThrottleStep -- R369
  | clockStepUp -- R369
  | overtempReset -- R369
  | rootTableWrite (w : Writer) (tenant : Nat) (v : Word) -- R181
  | pinMaskWrite (w : Writer) (slice : Nat) (v : BitVec 32) -- R179
  | classTemplateWrite (w : Writer) (n off : Nat) (v : Word) -- R313
  | groupTableWrite (w : Writer) (die entry : Nat) (off : Nat) (v : Word) -- R247
  | windowTableWrite (w : Writer) (n : Nat) (w0 w1 : Word) -- R342
  | hxwinWrite (w : Writer) (die : Nat) (v : Word) -- R303
  | gleanerRegionWrite (w : Writer) (n : Nat) (words : List Word) -- R268
  | routingDirectoryWrite (w : Writer) (n : Nat) (w0 w1 : Word) -- R281
  | acceptancePortWrite (w : Writer) (die port : Nat) (w0 w1 : Word) -- R277
  | errorRecordClear (w : Writer) (off : Nat) (v : Word) -- R371
  | mgmtRegisterWrite (w : Writer) (off : Nat) (v : Word) -- R370
  | managementCoreAccess (addr : Nat) (data : Option (List Byte)) (len : Nat) -- R221
  | managementFlush (pages : List Nat) (tenant : Option Nat) -- R180, page p of slice n is 32 n + p
  | loaderFlipRequest (w : Writer) (plot : Nat) -- R325
deriving DecidableEq, Repr

end Sys2Proof
end

