-- ==== Sys2Proof/Machine/Opcodes.lean ====
section
/-! DEFINITION. The opcode map (R71 to R76) as rows: opcode, instruction, field kinds (R62), whether a hint is
honoured (R59), and the values of modifier and number fields that the entry defines. -/

namespace Sys2Proof

/-- The kinds of R62, split by the register file that the entry names. -/
inductive Kind where
  /-- unused: 0 -/
  | z
  /-- destination, an s register (s55 is no destination, R63) -/
  | dS
  /-- destination, an s register that is no queue port -/
  | dO
  /-- destination, an s or v register that is no queue port (`ldr`, `amove`) -/
  | dR
  /-- destination, a v register -/
  | dV
  /-- source, an s register -/
  | sS
  /-- source, a v register -/
  | sV
  /-- operand E: an s register or the literal -/
  | eS
  /-- operand E: a v register -/
  | eV
  /-- operand E: a v register, or a scalar broadcast (R120) -/
  | eX
  /-- signed immediate -/
  | im
  /-- modifier -/
  | m
  /-- predicate -/
  | p
  /-- lane mask -/
  | k
  /-- accumulator tile -/
  | t
  /-- map, stream or window -/
  | q
deriving DecidableEq, Repr

/-- Whether a register number may stand in a field of the kind (R62, R63, R93, R119). -/
def Kind.regOk (f : Kind) (n : Nat) : Bool :=
  match f with
  | .dS => n < 64 && n != 55
  | .dO => n < 64 && n != 54 && n != 55
  | .dR => n != 54 && n != 55 && n != 118 && n != 119
  | .dV => 64 ≤ n && n != 119
  | .sS | .eS => n < 64 && n != 54
  | .sV | .eV => 64 ≤ n && n != 118
  | .eX => n != 54 && n != 118
  | .z => n == 0
  | .p | .k => n < 8
  | .t => n < 16
  | .im | .m | .q => true

/-- Whether the kind honours its FEM bit (R62, R147). -/
def Kind.fem : Kind → Bool
  | .sS | .sV | .eS | .eV | .eX | .t => true
  | _ => false

/-- Whether the kind is one of operand E, in which a literal may stand: a `v` register is demanded by `eV`
(R119, R136), so no literal is allowed there. -/
def Kind.isE : Kind → Bool
  | .eS | .eX => true
  | _ => false

/-- The width of a vector form in bits (R56). -/
def vecWidth (x : Syl) : Nat := 256 * 2 ^ x.st.toNat

/-- The access word of R200. -/
def accessOk (d : BitVec 7) (mayVar sized : Bool) : Bool :=
  !d.getLsbD 6 && d.toNat / 8 % 8 ≤ 4 && (mayVar || !d.getLsbD 2) &&
    (if sized then d.toNat % 4 == 2 || d.toNat % 4 == 3 else d.toNat % 4 == 0)

/-- The limits of `vprune` that its fields show (R139). -/
def pruneOk (n m : Nat) : Bool := [2, 4, 8, 16].contains m && 1 ≤ n && n ≤ m

/-- One row of the opcode map. -/
structure Row where
  opc : Nat
  instr : Syl → Instr
  kinds : List Kind
  hint : Bool
  ok : Syl → Bool

/-- Rows of the A class, in the order of R72, part 0. -/
def rowsA0 : List Row := [
  ⟨0x000, .nop .A, [.z, .z, .z, .z, .z], false, fun _ => true⟩,
  ⟨0x001, .lea, [.dS, .sS, .z, .m, .eS], false, fun x => x.d.toNat ≤ 7⟩,
  ⟨0x010, .lda, [.z, .sS, .im, .m, .z], true, fun x => x.d.toNat ≤ 3⟩,
  ⟨0x011, .ldav, [.z, .sS, .im, .m, .z], true, fun x => x.d.toNat ≤ 36⟩,
  ⟨0x012, fun x => if x.d == 7 then .staV x else .sta x, [.z, .sS, .im, .m, .z], true, fun x => x.d.toNat ≤ 3 || x.d.toNat == 7⟩,
  ⟨0x013, .mark, [.z, .z, .z, .z, .z], false, fun _ => true⟩,
  ⟨0x014, .pref, [.z, .sS, .im, .m, .z], true, fun x => 6 ≤ x.d.toNat && x.d.toNat ≤ 12⟩,
  ⟨0x015, .ldr, [.dR, .sS, .im, .m, .z], true, fun x => if x.a.toNat < 64 then x.d.toNat ≤ 3 else x.d.toNat ≤ 36⟩,
  ⟨0x020, .amoadd, [.dS, .sS, .z, .m, .eS], true, fun x => accessOk x.d false true⟩,
  ⟨0x021, .amoswap, [.dS, .sS, .z, .m, .eS], true, fun x => accessOk x.d false true⟩,
  ⟨0x022, .amocas, [.dS, .sS, .sS, .m, .eS], true, fun x => accessOk x.d false true⟩,
  ⟨0x023, .amomin, [.dS, .sS, .z, .m, .eS], true, fun x => accessOk x.d true true⟩,
  ⟨0x024, .amomax, [.dS, .sS, .z, .m, .eS], true, fun x => accessOk x.d true true⟩,
  ⟨0x025, .amoand, [.dS, .sS, .z, .m, .eS], true, fun x => accessOk x.d false true⟩,
  ⟨0x026, .amoor, [.dS, .sS, .z, .m, .eS], true, fun x => accessOk x.d false true⟩,
  ⟨0x027, .amoxor, [.dS, .sS, .z, .m, .eS], true, fun x => accessOk x.d false true⟩]

/-- Rows of the A class, in the order of R72, part 1. -/
def rowsA1 : List Row := [
  ⟨0x030, .ldfe, [.dS, .sS, .z, .m, .z], true, fun x => accessOk x.d true true⟩,
  ⟨0x031, .stfe, [.z, .sS, .z, .m, .eS], true, fun x => accessOk x.d true true⟩,
  ⟨0x032, .setf, [.z, .sS, .z, .m, .z], true, fun x => accessOk x.d false false⟩,
  ⟨0x033, .sete, [.z, .sS, .z, .m, .z], true, fun x => accessOk x.d false false⟩,
  ⟨0x040, .fence, [.dO, .z, .z, .m, .z], false, fun x => x.d.toNat ≤ 4⟩,
  ⟨0x041, .fenceRel, [.dO, .z, .z, .m, .z], false, fun x => x.d.toNat ≤ 4⟩,
  ⟨0x042, .fenceAcq, [.dO, .z, .z, .m, .z], false, fun x => x.d.toNat ≤ 4⟩,
  ⟨0x043, .fwait, [.z, .sS, .z, .z, .z], false, fun _ => true⟩,
  ⟨0x050, .shbind, [.q, .sS, .sS, .m, .eS], false, fun x => x.a.toNat ≤ 15 && x.d.toNat ≤ 7⟩,
  ⟨0x051, .shbindw, [.q, .sS, .sS, .m, .eS], false, fun x => x.a.toNat ≤ 15 && x.d.toNat ≤ 7⟩,
  ⟨0x052, .shunb, [.q, .z, .z, .z, .z], false, fun x => x.a.toNat ≤ 15⟩,
  ⟨0x058, .binds, [.q, .sS, .sS, .m, .eS], true, fun x => x.a.toNat ≤ 7 && x.d.toNat ≤ 3⟩,
  ⟨0x059, .unbs, [.q, .z, .z, .z, .z], false, fun x => x.a.toNat ≤ 7⟩,
  ⟨0x060, fun x => if x.d.extractLsb' 0 2 == 0 then .tlbinvPage x else if x.d.extractLsb' 0 2 == 1 then .tlbinvRange x else if x.d.extractLsb' 0 2 == 2 then .tlbinvTenant x else .tlbinvAll x, [.z, .sS, .z, .m, .eS], false, fun x => 1 ≤ x.d.toNat / 4 && x.d.toNat / 4 ≤ 3⟩]

/-- The opcode map of the A class (R72). -/
def rowsA : List Row := rowsA0 ++ rowsA1

/-- Rows of the S class, in the order of R73, part 0. -/
def rowsS0 : List Row := [
  ⟨0x000, .nop .S, [.z, .z, .z, .z, .z], false, fun _ => true⟩,
  ⟨0x001, .add, [.dS, .sS, .z, .z, .eS], false, fun _ => true⟩,
  ⟨0x002, .sub, [.dS, .sS, .z, .z, .eS], false, fun _ => true⟩,
  ⟨0x003, .mul, [.dS, .sS, .z, .z, .eS], false, fun _ => true⟩,
  ⟨0x004, .mulh, [.dS, .sS, .z, .z, .eS], false, fun _ => true⟩,
  ⟨0x005, .mulhu, [.dS, .sS, .z, .z, .eS], false, fun _ => true⟩,
  ⟨0x006, .shadd, [.dS, .sS, .m, .z, .eS], false, fun x => x.c.toNat ≤ 7⟩,
  ⟨0x007, .sext, [.dS, .sS, .m, .z, .z], false, fun x => x.c.toNat ≤ 63⟩,
  ⟨0x008, .zext, [.dS, .sS, .m, .z, .z], false, fun x => x.c.toNat ≤ 63⟩,
  ⟨0x009, .min, [.dS, .sS, .z, .z, .eS], false, fun _ => true⟩,
  ⟨0x00A, .minu, [.dS, .sS, .z, .z, .eS], false, fun _ => true⟩,
  ⟨0x00B, .max, [.dS, .sS, .z, .z, .eS], false, fun _ => true⟩,
  ⟨0x00C, .maxu, [.dS, .sS, .z, .z, .eS], false, fun _ => true⟩,
  ⟨0x010, .div, [.dS, .sS, .z, .z, .eS], false, fun _ => true⟩,
  ⟨0x011, .divu, [.dS, .sS, .z, .z, .eS], false, fun _ => true⟩,
  ⟨0x012, .rem, [.dS, .sS, .z, .z, .eS], false, fun _ => true⟩]

/-- Rows of the S class, in the order of R73, part 1. -/
def rowsS1 : List Row := [
  ⟨0x013, .remu, [.dS, .sS, .z, .z, .eS], false, fun _ => true⟩,
  ⟨0x020, .and, [.dS, .sS, .z, .z, .eS], false, fun _ => true⟩,
  ⟨0x021, .or, [.dS, .sS, .z, .z, .eS], false, fun _ => true⟩,
  ⟨0x022, .xor, [.dS, .sS, .z, .z, .eS], false, fun _ => true⟩,
  ⟨0x023, .andn, [.dS, .sS, .z, .z, .eS], false, fun _ => true⟩,
  ⟨0x024, .orn, [.dS, .sS, .z, .z, .eS], false, fun _ => true⟩,
  ⟨0x025, .shl, [.dS, .sS, .z, .z, .eS], false, fun _ => true⟩,
  ⟨0x026, .shr, [.dS, .sS, .z, .z, .eS], false, fun _ => true⟩,
  ⟨0x027, .sar, [.dS, .sS, .z, .z, .eS], false, fun _ => true⟩,
  ⟨0x028, .rol, [.dS, .sS, .z, .z, .eS], false, fun _ => true⟩,
  ⟨0x029, .ror, [.dS, .sS, .z, .z, .eS], false, fun _ => true⟩,
  ⟨0x030, .bext, [.dS, .sS, .m, .m, .z], false, fun x => x.c.toNat ≤ 63 && 1 ≤ x.d.toNat && x.d.toNat ≤ 64 && x.c.toNat + x.d.toNat ≤ 64⟩,
  ⟨0x031, .bins, [.dS, .sS, .m, .m, .eS], false, fun x => x.c.toNat ≤ 63 && 1 ≤ x.d.toNat && x.d.toNat ≤ 64 && x.c.toNat + x.d.toNat ≤ 64⟩,
  ⟨0x032, .clz, [.dS, .sS, .z, .z, .z], false, fun _ => true⟩,
  ⟨0x033, .ctz, [.dS, .sS, .z, .z, .z], false, fun _ => true⟩,
  ⟨0x034, .popc, [.dS, .sS, .z, .z, .z], false, fun _ => true⟩]

/-- Rows of the S class, in the order of R73, part 2. -/
def rowsS2 : List Row := [
  ⟨0x040, .mov, [.dS, .sS, .z, .z, .z], false, fun _ => true⟩,
  ⟨0x041, .li, [.dS, .z, .z, .z, .eS], false, fun _ => true⟩,
  ⟨0x042, .sel, [.dS, .sS, .p, .z, .eS], false, fun _ => true⟩,
  ⟨0x050, .cmpeq, [.p, .sS, .z, .z, .eS], false, fun _ => true⟩,
  ⟨0x051, .cmpne, [.p, .sS, .z, .z, .eS], false, fun _ => true⟩,
  ⟨0x052, .cmplt, [.p, .sS, .z, .z, .eS], false, fun _ => true⟩,
  ⟨0x053, .cmpltu, [.p, .sS, .z, .z, .eS], false, fun _ => true⟩,
  ⟨0x054, .cmple, [.p, .sS, .z, .z, .eS], false, fun _ => true⟩,
  ⟨0x055, .cmpleu, [.p, .sS, .z, .z, .eS], false, fun _ => true⟩,
  ⟨0x058, .pand, [.p, .p, .p, .z, .z], false, fun _ => true⟩,
  ⟨0x059, .por, [.p, .p, .p, .z, .z], false, fun _ => true⟩,
  ⟨0x05A, .pxor, [.p, .p, .p, .z, .z], false, fun _ => true⟩,
  ⟨0x05B, .pandn, [.p, .p, .p, .z, .z], false, fun _ => true⟩,
  ⟨0x080, .fadd, [.dS, .sS, .z, .z, .eS], false, fun _ => true⟩,
  ⟨0x081, .fsub, [.dS, .sS, .z, .z, .eS], false, fun _ => true⟩,
  ⟨0x082, .fmul, [.dS, .sS, .z, .z, .eS], false, fun _ => true⟩]

/-- Rows of the S class, in the order of R73, part 3. -/
def rowsS3 : List Row := [
  ⟨0x083, .ffma, [.dS, .sS, .sS, .z, .eS], false, fun _ => true⟩,
  ⟨0x084, .fmin, [.dS, .sS, .z, .z, .eS], false, fun _ => true⟩,
  ⟨0x085, .fmax, [.dS, .sS, .z, .z, .eS], false, fun _ => true⟩,
  ⟨0x086, .fcmpeq, [.p, .sS, .z, .z, .eS], false, fun _ => true⟩,
  ⟨0x087, .fcmplt, [.p, .sS, .z, .z, .eS], false, fun _ => true⟩,
  ⟨0x088, .fcmple, [.p, .sS, .z, .z, .eS], false, fun _ => true⟩,
  ⟨0x089, .fcvtfi, [.dS, .sS, .z, .m, .z], false, fun x => x.d.toNat ≤ 3⟩,
  ⟨0x08A, .fcvtif, [.dS, .sS, .z, .m, .z], false, fun x => x.d.toNat ≤ 3⟩]

/-- The opcode map of the S class (R73). -/
def rowsS : List Row := rowsS0 ++ rowsS1 ++ rowsS2 ++ rowsS3

/-- Rows of the V class, in the order of R74, part 0. -/
def rowsV0 : List Row := [
  ⟨0x000, .nop .V, [.z, .z, .z, .z, .z], false, fun _ => true⟩,
  ⟨0x001, .vadd, [.dV, .sV, .k, .z, .eX], false, fun _ => true⟩,
  ⟨0x002, .vsub, [.dV, .sV, .k, .z, .eX], false, fun _ => true⟩,
  ⟨0x003, .vmul, [.dV, .sV, .k, .z, .eX], false, fun _ => true⟩,
  ⟨0x004, .vdiv, [.dV, .sV, .k, .z, .eX], false, fun _ => true⟩,
  ⟨0x005, .vmin, [.dV, .sV, .k, .z, .eX], false, fun _ => true⟩,
  ⟨0x006, .vmax, [.dV, .sV, .k, .z, .eX], false, fun _ => true⟩,
  ⟨0x007, .vfma, [.dV, .sV, .k, .sV, .eX], false, fun _ => true⟩,
  ⟨0x008, .vclamp, [.dV, .sV, .k, .sV, .eX], false, fun _ => true⟩,
  ⟨0x009, .vsqrt, [.dV, .sV, .k, .z, .z], false, fun _ => true⟩,
  ⟨0x00A, .vabs, [.dV, .sV, .k, .z, .z], false, fun _ => true⟩,
  ⟨0x00B, .vneg, [.dV, .sV, .k, .z, .z], false, fun _ => true⟩,
  ⟨0x010, .viadd, [.dV, .sV, .k, .z, .eX], false, fun _ => true⟩,
  ⟨0x011, .visub, [.dV, .sV, .k, .z, .eX], false, fun _ => true⟩,
  ⟨0x012, .vimul, [.dV, .sV, .k, .z, .eX], false, fun _ => true⟩,
  ⟨0x013, .vsadd, [.dV, .sV, .k, .z, .eX], false, fun _ => true⟩]

/-- Rows of the V class, in the order of R74, part 1. -/
def rowsV1 : List Row := [
  ⟨0x014, .vssub, [.dV, .sV, .k, .z, .eX], false, fun _ => true⟩,
  ⟨0x020, .vand, [.dV, .sV, .k, .z, .eX], false, fun _ => true⟩,
  ⟨0x021, .vor, [.dV, .sV, .k, .z, .eX], false, fun _ => true⟩,
  ⟨0x022, .vxor, [.dV, .sV, .k, .z, .eX], false, fun _ => true⟩,
  ⟨0x023, .vandn, [.dV, .sV, .k, .z, .eX], false, fun _ => true⟩,
  ⟨0x024, .vshl, [.dV, .sV, .k, .z, .eX], false, fun _ => true⟩,
  ⟨0x025, .vshr, [.dV, .sV, .k, .z, .eX], false, fun _ => true⟩,
  ⟨0x026, .vsar, [.dV, .sV, .k, .z, .eX], false, fun _ => true⟩,
  ⟨0x030, .vcmpeq, [.k, .sV, .k, .z, .eX], false, fun _ => true⟩,
  ⟨0x031, .vcmpne, [.k, .sV, .k, .z, .eX], false, fun _ => true⟩,
  ⟨0x032, .vcmplt, [.k, .sV, .k, .z, .eX], false, fun _ => true⟩,
  ⟨0x033, .vcmple, [.k, .sV, .k, .z, .eX], false, fun _ => true⟩,
  ⟨0x034, .vcmpun, [.k, .sV, .k, .z, .eX], false, fun _ => true⟩,
  ⟨0x038, .kand, [.k, .k, .k, .z, .z], false, fun _ => true⟩,
  ⟨0x039, .kor, [.k, .k, .k, .z, .z], false, fun _ => true⟩,
  ⟨0x03A, .kxor, [.k, .k, .k, .z, .z], false, fun _ => true⟩]

/-- Rows of the V class, in the order of R74, part 2. -/
def rowsV2 : List Row := [
  ⟨0x03B, .knot, [.k, .k, .z, .z, .z], false, fun _ => true⟩,
  ⟨0x03C, .kpopc, [.dS, .k, .z, .z, .z], false, fun _ => true⟩,
  ⟨0x040, .vsel, [.dV, .sV, .k, .z, .eX], false, fun _ => true⟩,
  ⟨0x041, .vmov, [.dV, .sV, .z, .z, .z], false, fun _ => true⟩,
  ⟨0x042, .vbcast, [.dV, .z, .z, .z, .eX], false, fun _ => true⟩,
  ⟨0x043, .vext, [.dS, .sV, .z, .z, .eS], false, fun _ => true⟩,
  ⟨0x044, .vtag, [.dV, .sV, .z, .m, .z], false, fun x => x.d.toNat ≤ 36⟩,
  ⟨0x050, .vcvt, [.dV, .sV, .k, .m, .z], false, fun x => 1 ≤ x.d.toNat % 64 && x.d.toNat % 64 ≤ 34⟩,
  ⟨0x051, .vquant, [.dV, .sV, .k, .m, .eS], false, fun x => 4 ≤ x.d.toNat % 64 && x.d.toNat % 64 ≤ 28⟩,
  ⟨0x052, .vamax, [.dS, .sV, .k, .z, .z], false, fun _ => true⟩,
  ⟨0x054, .vpair, [.dV, .sV, .z, .z, .eX], false, fun _ => true⟩,
  ⟨0x055, .vsplit, [.dV, .sV, .z, .m, .z], false, fun x => x.d.toNat ≤ 1⟩,
  ⟨0x060, .vredsum, [.dS, .sV, .k, .z, .z], false, fun _ => true⟩,
  ⟨0x061, .vredmax, [.dS, .sV, .k, .z, .z], false, fun _ => true⟩,
  ⟨0x062, .vredmin, [.dS, .sV, .k, .z, .z], false, fun _ => true⟩,
  ⟨0x063, .vscan, [.dV, .sV, .k, .m, .z], false, fun x => x.d.toNat ≤ 3⟩]

/-- Rows of the V class, in the order of R74, part 3. -/
def rowsV3 : List Row := [
  ⟨0x070, .vexp, [.dV, .sV, .k, .z, .z], false, fun _ => true⟩,
  ⟨0x071, .vlog, [.dV, .sV, .k, .z, .z], false, fun _ => true⟩,
  ⟨0x072, .vrcp, [.dV, .sV, .k, .z, .z], false, fun _ => true⟩,
  ⟨0x073, .vrsqrt, [.dV, .sV, .k, .z, .z], false, fun _ => true⟩,
  ⟨0x074, .vtanh, [.dV, .sV, .k, .z, .z], false, fun _ => true⟩,
  ⟨0x075, .vsilu, [.dV, .sV, .k, .z, .z], false, fun _ => true⟩,
  ⟨0x076, .vgelu, [.dV, .sV, .k, .z, .z], false, fun _ => true⟩,
  ⟨0x080, .vperm, [.dV, .sV, .z, .z, .eV], false, fun _ => true⟩,
  ⟨0x081, .vrot, [.dV, .sV, .z, .z, .eS], false, fun _ => true⟩,
  ⟨0x082, .vzip, [.dV, .sV, .z, .z, .eV], false, fun _ => true⟩,
  ⟨0x083, .vunzip, [.dV, .sV, .z, .z, .eV], false, fun _ => true⟩,
  ⟨0x088, .vcompress, [.dV, .sV, .k, .dS, .z], false, fun _ => true⟩,
  ⟨0x089, .vexpand, [.dV, .sV, .k, .z, .z], false, fun _ => true⟩,
  ⟨0x090, .vtopk, [.dV, .sV, .z, .m, .z], false, fun x => 1 ≤ x.d.toNat && x.d.toNat ≤ vecWidth x / 64⟩,
  ⟨0x091, .vprune, [.dV, .sV, .m, .m, .dV], false, fun x => pruneOk x.c.toNat x.d.toNat && x.e != x.a⟩,
  ⟨0x0A0, .vtopkm, [.dV, .sS, .sS, .m, .eS], true, fun x => 1 ≤ x.d.toNat && x.d.toNat ≤ vecWidth x / 64⟩]

/-- Rows of the V class, in the order of R74, part 4. -/
def rowsV4 : List Row := [
  ⟨0x0A1, .vprunem, [.dS, .sS, .sS, .m, .eS], true, fun x => x.d.toNat % 8 + 1 ≤ 2 ^ (x.d.toNat / 8 % 4 + 1)⟩,
  ⟨0x0A2, .vcmpm, [.dV, .sS, .sS, .m, .eS], true, fun x => x.d.toNat % 8 ≤ 5 && x.d.toNat / 16 == 0⟩,
  ⟨0x0A3, .vredm, [.dS, .sS, .sS, .m, .eS], true, fun x => x.d.toNat % 4 ≤ 2 && x.d.toNat / 4 % 4 ≤ 2 && x.d.toNat / 16 == 0⟩,
  ⟨0x0A4, .vgathm, [.dV, .sS, .sV, .m, .eS], true, fun x => [1, 2, 4, 5, 6, 7, 8, 9, 22, 23, 24, 29, 30, 31, 32, 33, 34, 36].contains x.d.toNat⟩]

/-- The opcode map of the V class (R74). -/
def rowsV : List Row := rowsV0 ++ rowsV1 ++ rowsV2 ++ rowsV3 ++ rowsV4

/-- Rows of the M class, in the order of R75, part 0. -/
def rowsM0 : List Row := [
  ⟨0x000, .nop .M, [.z, .z, .z, .z, .z], false, fun _ => true⟩,
  ⟨0x001, fun x => if x.d == 1 then .aleaseTry x else .alease x, [.dO, .z, .z, .m, .z], false, fun x => x.d.toNat ≤ 1⟩,
  ⟨0x002, .arel, [.z, .sS, .z, .z, .z], false, fun _ => true⟩,
  ⟨0x010, .aidx, [.z, .sS, .z, .m, .eS], false, fun x => 1 ≤ x.d.toNat % 32 && x.d.toNat % 32 ≤ 28 && x.d.toNat / 32 != 3⟩,
  ⟨0x011, .abind, [.z, .sS, .sS, .m, .eS], false, fun x => 1 ≤ x.d.toNat % 32 && x.d.toNat % 32 ≤ 28 && x.d.toNat / 64 == 0⟩,
  ⟨0x012, .ascl, [.z, .sS, .sS, .m, .eS], false, fun x => x.d == 0⟩,
  ⟨0x020, .amul, [.t, .sS, .z, .m, .eS], false, fun x => x.d.toNat ≤ 1⟩,
  ⟨0x021, .amac, [.t, .sS, .z, .m, .eS], false, fun x => x.d.toNat ≤ 1⟩,
  ⟨0x022, .amulm, [.t, .sS, .z, .m, .eS], false, fun x => x.d.toNat ≤ 1⟩,
  ⟨0x023, .amacm, [.t, .sS, .z, .m, .eS], false, fun x => x.d.toNat ≤ 1⟩,
  ⟨0x030, .azero, [.t, .sS, .z, .z, .z], false, fun _ => true⟩,
  ⟨0x031, .acvt, [.t, .sS, .z, .m, .z], false, fun x => [1, 2, 29, 31].contains x.d.toNat⟩,
  ⟨0x032, .amove, [.dR, .t, .sS, .m, .z], false, fun x => [1, 2, 29, 31].contains x.d.toNat⟩,
  ⟨0x033, .astore, [.z, .t, .sS, .m, .eS], false, fun x => x.d.toNat % 8 ≤ 4 && x.d.toNat / 16 == 0⟩,
  ⟨0x034, .apred, [.t, .sS, .sS, .m, .eS], false, fun x => x.d.toNat ≤ 3⟩,
  ⟨0x035, .await, [.z, .sS, .z, .z, .z], false, fun _ => true⟩]

/-- Rows of the M class, in the order of R75, part 1. -/
def rowsM1 : List Row := [
  ⟨0x040, .copy, [.z, .sS, .sS, .m, .eS], true, fun x => x.d.toNat ≤ 63⟩,
  ⟨0x041, .drill, [.z, .sS, .z, .m, .eS], false, fun x => x.d.toNat ≤ 63⟩,
  ⟨0x042, .drw, [.z, .sS, .z, .m, .eS], false, fun x => x.d.toNat ≤ 63⟩,
  ⟨0x043, fun x => if x.d.getLsbD 6 then .drainAll x else .drain x, [.z, .z, .z, .m, .z], false, fun _ => true⟩,
  ⟨0x050, .coll, [.dO, .sS, .sS, .m, .eS], false, fun x => x.d.toNat % 8 ≤ 4 && x.d.toNat / 8 ≤ 2⟩,
  ⟨0x051, .collTopk, [.dO, .sS, .sS, .m, .eS], false, fun x => x.d == 0⟩,
  ⟨0x052, .a2a, [.dO, .sS, .sS, .m, .eS], false, fun x => x.d == 0⟩,
  ⟨0x053, .sample, [.dO, .sS, .sS, .m, .eS], false, fun x => x.d == 0⟩,
  ⟨0x054, .glean, [.z, .sS, .sS, .m, .z], false, fun x => x.d == 0⟩]

/-- The opcode map of the M class (R75). -/
def rowsM : List Row := rowsM0 ++ rowsM1

/-- Rows of the C class, in the order of R76, part 0. -/
def rowsC0 : List Row := [
  ⟨0x000, .nop .C, [.z, .z, .z, .z, .z], false, fun _ => true⟩,
  ⟨0x001, .br, [.z, .z, .z, .z, .eS], false, fun _ => true⟩,
  ⟨0x002, .bri, [.z, .sS, .z, .z, .z], false, fun _ => true⟩,
  ⟨0x003, .call, [.dS, .z, .z, .z, .eS], false, fun _ => true⟩,
  ⟨0x004, .ret, [.z, .sS, .z, .z, .z], false, fun _ => true⟩,
  ⟨0x008, .loop, [.z, .m, .z, .z, .eS], false, fun x => 1 ≤ x.b.toNat && x.b.toNat ≤ 4⟩,
  ⟨0x009, .loopl, [.z, .m, .z, .z, .eS], false, fun x => 1 ≤ x.b.toNat && x.b.toNat ≤ 4⟩,
  ⟨0x010, .bar, [.z, .z, .z, .z, .z], false, fun _ => true⟩,
  ⟨0x011, .phase, [.z, .z, .z, .m, .z], false, fun x => x.d.toNat ≤ 63⟩,
  ⟨0x012, .endTask, [.z, .z, .z, .z, .z], false, fun _ => true⟩,
  ⟨0x018, .csrr, [.dS, .z, .z, .z, .eS], false, fun _ => true⟩,
  ⟨0x019, .csrw, [.z, .sS, .z, .z, .eS], false, fun _ => true⟩,
  ⟨0x01A, .csrs, [.z, .sS, .z, .z, .eS], false, fun _ => true⟩,
  ⟨0x01B, .csrc, [.z, .sS, .z, .z, .eS], false, fun _ => true⟩,
  ⟨0x020, fun x => if x.d == 1 then .jtabRes x else .jtab x, [.z, .sS, .z, .m, .z], false, fun x => x.d.toNat ≤ 1⟩,
  ⟨0x028, .trap, [.z, .z, .z, .z, .eS], false, fun _ => true⟩]

/-- Rows of the C class, in the order of R76, part 1. -/
def rowsC1 : List Row := [
  ⟨0x029, .rett, [.z, .z, .z, .z, .z], false, fun _ => true⟩,
  ⟨0x02A, .yield, [.z, .z, .z, .z, .z], false, fun _ => true⟩,
  ⟨0x02B, .synct, [.p, .sS, .z, .z, .z], false, fun _ => true⟩,
  ⟨0x030, .launch, [.z, .sS, .sS, .m, .eS], false, fun x => x.d == 0⟩,
  ⟨0x031, .grow, [.z, .sS, .z, .z, .eS], false, fun _ => true⟩,
  ⟨0x032, .waitc, [.z, .sS, .z, .z, .eS], false, fun _ => true⟩,
  ⟨0x033, .sigc, [.z, .sS, .z, .z, .eS], false, fun _ => true⟩,
  ⟨0x034, .swap, [.z, .z, .z, .m, .z], false, fun _ => true⟩,
  ⟨0x038, .bget, [.dO, .z, .z, .m, .z], false, fun x => x.d.toNat ≤ 3⟩,
  ⟨0x039, .bgive, [.z, .sS, .z, .m, .eS], false, fun x => x.d.toNat ≤ 3⟩,
  ⟨0x03A, .topup, [.z, .sS, .z, .m, .eS], false, fun x => x.d.toNat ≤ 3⟩,
  ⟨0x040, .cwait, [.z, .q, .z, .z, .eS], false, fun x => x.b.toNat ≤ 63⟩,
  ⟨0x041, .ctest, [.p, .q, .z, .z, .eS], false, fun x => x.b.toNat ≤ 63⟩,
  ⟨0x048, fun x => if x.d.extractLsb' 5 2 == 0 then .rcupdF32 x else if x.d.extractLsb' 5 2 == 1 then .rcupdBf16 x else if x.d.extractLsb' 5 2 == 2 then .rcupdLd x else .rcupdSt x, [.z, .sS, .sS, .m, .z], false, fun x => x.d.toNat % 32 == 0⟩,
  ⟨0x049, .harrow, [.dS, .sS, .sS, .m, .z], false, fun x => x.d.toNat ≤ 7⟩,
  ⟨0x04A, .furrow, [.z, .sS, .sS, .m, .z], false, fun x => x.d.toNat ≤ 63⟩]

/-- Rows of the C class, in the order of R76, part 2. -/
def rowsC2 : List Row := [
  ⟨0x04B, .xnote, [.z, .sS, .sS, .m, .z], false, fun x => x.d == 0⟩,
  ⟨0x04C, .route, [.dS, .sS, .sS, .m, .eS], false, fun x => x.d.toNat ≤ 63⟩,
  ⟨0x050, .rdcnt, [.dO, .z, .z, .m, .eS], false, fun x => x.d.toNat ≤ 4⟩]

/-- The opcode map of the C class (R76). -/
def rowsC : List Row := rowsC0 ++ rowsC1 ++ rowsC2

/-- The opcode map of a class (R71). -/
def rowsOf : Cls → List Row
  | .A => rowsA
  | .S => rowsS
  | .V => rowsV
  | .M => rowsM
  | .C => rowsC

/-- The row of an opcode; none where the point is unassigned (R71). -/
def rowOf (c : Cls) (opc : Nat) : Option Row := (rowsOf c).find? (·.opc == opc)

/-- The class, opcode and fields of a syllable; none for an event of the device. -/
def Instr.syllable : Instr → Option (Cls × Nat × Syl)
  | .nop k x => some (k, 0x000, x)
  | .lea x => some (.A, 0x001, x)
  | .lda x => some (.A, 0x010, x)
  | .ldav x => some (.A, 0x011, x)
  | .sta x => some (.A, 0x012, x)
  | .staV x => some (.A, 0x012, x)
  | .mark x => some (.A, 0x013, x)
  | .pref x => some (.A, 0x014, x)
  | .ldr x => some (.A, 0x015, x)
  | .amoadd x => some (.A, 0x020, x)
  | .amoswap x => some (.A, 0x021, x)
  | .amocas x => some (.A, 0x022, x)
  | .amomin x => some (.A, 0x023, x)
  | .amomax x => some (.A, 0x024, x)
  | .amoand x => some (.A, 0x025, x)
  | .amoor x => some (.A, 0x026, x)
  | .amoxor x => some (.A, 0x027, x)
  | .ldfe x => some (.A, 0x030, x)
  | .stfe x => some (.A, 0x031, x)
  | .setf x => some (.A, 0x032, x)
  | .sete x => some (.A, 0x033, x)
  | .fence x => some (.A, 0x040, x)
  | .fenceRel x => some (.A, 0x041, x)
  | .fenceAcq x => some (.A, 0x042, x)
  | .fwait x => some (.A, 0x043, x)
  | .shbind x => some (.A, 0x050, x)
  | .shbindw x => some (.A, 0x051, x)
  | .shunb x => some (.A, 0x052, x)
  | .binds x => some (.A, 0x058, x)
  | .unbs x => some (.A, 0x059, x)
  | .tlbinvPage x => some (.A, 0x060, x)
  | .tlbinvRange x => some (.A, 0x060, x)
  | .tlbinvTenant x => some (.A, 0x060, x)
  | .tlbinvAll x => some (.A, 0x060, x)
  | .add x => some (.S, 0x001, x)
  | .sub x => some (.S, 0x002, x)
  | .mul x => some (.S, 0x003, x)
  | .mulh x => some (.S, 0x004, x)
  | .mulhu x => some (.S, 0x005, x)
  | .shadd x => some (.S, 0x006, x)
  | .sext x => some (.S, 0x007, x)
  | .zext x => some (.S, 0x008, x)
  | .min x => some (.S, 0x009, x)
  | .minu x => some (.S, 0x00A, x)
  | .max x => some (.S, 0x00B, x)
  | .maxu x => some (.S, 0x00C, x)
  | .div x => some (.S, 0x010, x)
  | .divu x => some (.S, 0x011, x)
  | .rem x => some (.S, 0x012, x)
  | .remu x => some (.S, 0x013, x)
  | .and x => some (.S, 0x020, x)
  | .or x => some (.S, 0x021, x)
  | .xor x => some (.S, 0x022, x)
  | .andn x => some (.S, 0x023, x)
  | .orn x => some (.S, 0x024, x)
  | .shl x => some (.S, 0x025, x)
  | .shr x => some (.S, 0x026, x)
  | .sar x => some (.S, 0x027, x)
  | .rol x => some (.S, 0x028, x)
  | .ror x => some (.S, 0x029, x)
  | .bext x => some (.S, 0x030, x)
  | .bins x => some (.S, 0x031, x)
  | .clz x => some (.S, 0x032, x)
  | .ctz x => some (.S, 0x033, x)
  | .popc x => some (.S, 0x034, x)
  | .mov x => some (.S, 0x040, x)
  | .li x => some (.S, 0x041, x)
  | .sel x => some (.S, 0x042, x)
  | .cmpeq x => some (.S, 0x050, x)
  | .cmpne x => some (.S, 0x051, x)
  | .cmplt x => some (.S, 0x052, x)
  | .cmpltu x => some (.S, 0x053, x)
  | .cmple x => some (.S, 0x054, x)
  | .cmpleu x => some (.S, 0x055, x)
  | .pand x => some (.S, 0x058, x)
  | .por x => some (.S, 0x059, x)
  | .pxor x => some (.S, 0x05A, x)
  | .pandn x => some (.S, 0x05B, x)
  | .fadd x => some (.S, 0x080, x)
  | .fsub x => some (.S, 0x081, x)
  | .fmul x => some (.S, 0x082, x)
  | .ffma x => some (.S, 0x083, x)
  | .fmin x => some (.S, 0x084, x)
  | .fmax x => some (.S, 0x085, x)
  | .fcmpeq x => some (.S, 0x086, x)
  | .fcmplt x => some (.S, 0x087, x)
  | .fcmple x => some (.S, 0x088, x)
  | .fcvtfi x => some (.S, 0x089, x)
  | .fcvtif x => some (.S, 0x08A, x)
  | .vadd x => some (.V, 0x001, x)
  | .vsub x => some (.V, 0x002, x)
  | .vmul x => some (.V, 0x003, x)
  | .vdiv x => some (.V, 0x004, x)
  | .vmin x => some (.V, 0x005, x)
  | .vmax x => some (.V, 0x006, x)
  | .vfma x => some (.V, 0x007, x)
  | .vclamp x => some (.V, 0x008, x)
  | .vsqrt x => some (.V, 0x009, x)
  | .vabs x => some (.V, 0x00A, x)
  | .vneg x => some (.V, 0x00B, x)
  | .viadd x => some (.V, 0x010, x)
  | .visub x => some (.V, 0x011, x)
  | .vimul x => some (.V, 0x012, x)
  | .vsadd x => some (.V, 0x013, x)
  | .vssub x => some (.V, 0x014, x)
  | .vand x => some (.V, 0x020, x)
  | .vor x => some (.V, 0x021, x)
  | .vxor x => some (.V, 0x022, x)
  | .vandn x => some (.V, 0x023, x)
  | .vshl x => some (.V, 0x024, x)
  | .vshr x => some (.V, 0x025, x)
  | .vsar x => some (.V, 0x026, x)
  | .vcmpeq x => some (.V, 0x030, x)
  | .vcmpne x => some (.V, 0x031, x)
  | .vcmplt x => some (.V, 0x032, x)
  | .vcmple x => some (.V, 0x033, x)
  | .vcmpun x => some (.V, 0x034, x)
  | .kand x => some (.V, 0x038, x)
  | .kor x => some (.V, 0x039, x)
  | .kxor x => some (.V, 0x03A, x)
  | .knot x => some (.V, 0x03B, x)
  | .kpopc x => some (.V, 0x03C, x)
  | .vsel x => some (.V, 0x040, x)
  | .vmov x => some (.V, 0x041, x)
  | .vbcast x => some (.V, 0x042, x)
  | .vext x => some (.V, 0x043, x)
  | .vtag x => some (.V, 0x044, x)
  | .vcvt x => some (.V, 0x050, x)
  | .vquant x => some (.V, 0x051, x)
  | .vamax x => some (.V, 0x052, x)
  | .vpair x => some (.V, 0x054, x)
  | .vsplit x => some (.V, 0x055, x)
  | .vredsum x => some (.V, 0x060, x)
  | .vredmax x => some (.V, 0x061, x)
  | .vredmin x => some (.V, 0x062, x)
  | .vscan x => some (.V, 0x063, x)
  | .vexp x => some (.V, 0x070, x)
  | .vlog x => some (.V, 0x071, x)
  | .vrcp x => some (.V, 0x072, x)
  | .vrsqrt x => some (.V, 0x073, x)
  | .vtanh x => some (.V, 0x074, x)
  | .vsilu x => some (.V, 0x075, x)
  | .vgelu x => some (.V, 0x076, x)
  | .vperm x => some (.V, 0x080, x)
  | .vrot x => some (.V, 0x081, x)
  | .vzip x => some (.V, 0x082, x)
  | .vunzip x => some (.V, 0x083, x)
  | .vcompress x => some (.V, 0x088, x)
  | .vexpand x => some (.V, 0x089, x)
  | .vtopk x => some (.V, 0x090, x)
  | .vprune x => some (.V, 0x091, x)
  | .vtopkm x => some (.V, 0x0A0, x)
  | .vprunem x => some (.V, 0x0A1, x)
  | .vcmpm x => some (.V, 0x0A2, x)
  | .vredm x => some (.V, 0x0A3, x)
  | .vgathm x => some (.V, 0x0A4, x)
  | .alease x => some (.M, 0x001, x)
  | .aleaseTry x => some (.M, 0x001, x)
  | .arel x => some (.M, 0x002, x)
  | .aidx x => some (.M, 0x010, x)
  | .abind x => some (.M, 0x011, x)
  | .ascl x => some (.M, 0x012, x)
  | .amul x => some (.M, 0x020, x)
  | .amac x => some (.M, 0x021, x)
  | .amulm x => some (.M, 0x022, x)
  | .amacm x => some (.M, 0x023, x)
  | .azero x => some (.M, 0x030, x)
  | .acvt x => some (.M, 0x031, x)
  | .amove x => some (.M, 0x032, x)
  | .astore x => some (.M, 0x033, x)
  | .apred x => some (.M, 0x034, x)
  | .await x => some (.M, 0x035, x)
  | .copy x => some (.M, 0x040, x)
  | .drill x => some (.M, 0x041, x)
  | .drw x => some (.M, 0x042, x)
  | .drain x => some (.M, 0x043, x)
  | .drainAll x => some (.M, 0x043, x)
  | .coll x => some (.M, 0x050, x)
  | .collTopk x => some (.M, 0x051, x)
  | .a2a x => some (.M, 0x052, x)
  | .sample x => some (.M, 0x053, x)
  | .glean x => some (.M, 0x054, x)
  | .br x => some (.C, 0x001, x)
  | .bri x => some (.C, 0x002, x)
  | .call x => some (.C, 0x003, x)
  | .ret x => some (.C, 0x004, x)
  | .loop x => some (.C, 0x008, x)
  | .loopl x => some (.C, 0x009, x)
  | .bar x => some (.C, 0x010, x)
  | .phase x => some (.C, 0x011, x)
  | .endTask x => some (.C, 0x012, x)
  | .csrr x => some (.C, 0x018, x)
  | .csrw x => some (.C, 0x019, x)
  | .csrs x => some (.C, 0x01A, x)
  | .csrc x => some (.C, 0x01B, x)
  | .jtab x => some (.C, 0x020, x)
  | .jtabRes x => some (.C, 0x020, x)
  | .trap x => some (.C, 0x028, x)
  | .rett x => some (.C, 0x029, x)
  | .yield x => some (.C, 0x02A, x)
  | .synct x => some (.C, 0x02B, x)
  | .launch x => some (.C, 0x030, x)
  | .grow x => some (.C, 0x031, x)
  | .waitc x => some (.C, 0x032, x)
  | .sigc x => some (.C, 0x033, x)
  | .swap x => some (.C, 0x034, x)
  | .bget x => some (.C, 0x038, x)
  | .bgive x => some (.C, 0x039, x)
  | .topup x => some (.C, 0x03A, x)
  | .cwait x => some (.C, 0x040, x)
  | .ctest x => some (.C, 0x041, x)
  | .rcupdF32 x => some (.C, 0x048, x)
  | .rcupdBf16 x => some (.C, 0x048, x)
  | .rcupdLd x => some (.C, 0x048, x)
  | .rcupdSt x => some (.C, 0x048, x)
  | .harrow x => some (.C, 0x049, x)
  | .furrow x => some (.C, 0x04A, x)
  | .xnote x => some (.C, 0x04B, x)
  | .route x => some (.C, 0x04C, x)
  | .rdcnt x => some (.C, 0x050, x)
  | .headerAloneBundle _ => none
  | .instructionFetchFault _ => none
  | .resultLand _ => none
  | .dividerFill _ => none
  | .shadowLatchDeliver _ => none
  | .rangeGroupComplete _ _ => none
  | .lateAccessFault _ => none
  | .loadPerform _ _ => none
  | .storePerform _ => none
  | .storeBufferWriteback _ => none
  | .atomicPerform _ => none
  | .syncOpPerform _ => none
  | .yieldTaken _ => none
  | .contextSaveComplete _ => none
  | .contextResume _ => none
  | .yieldDistanceFault _ => none
  | .taskDone _ => none
  | .launchRecordRead _ _ => none
  | .groupPlace _ _ => none
  | .barrierComplete _ _ => none
  | .sigcWrite _ => none
  | .gangAbort _ _ _ _ => none
  | .acreCommandExecute _ _ => none
  | .aleaseGrant _ => none
  | .leaseEntryFree _ _ => none
  | .amoveFill _ => none
  | .acreQuantumEnd _ => none
  | .tlbinvComplete _ => none
  | .streamReadAhead _ _ _ => none
  | .streamWriteBehind _ _ => none
  | .drillCommandStart _ _ => none
  | .drillElementTransfer _ _ _ => none
  | .chunkComplete _ _ _ => none
  | .furrowExecute _ _ _ => none
  | .collectiveInstanceStart _ _ _ _ => none
  | .collectiveInstanceComplete _ _ _ _ => none
  | .sampleServe _ _ => none
  | .slotTableWrite _ _ _ => none
  | .preemptRequest _ => none
  | .uncorrectableError _ => none
  | .gridFault _ _ => none
  | .probeSend _ => none
  | .probeReceive _ => none
  | .waitProbeReport _ => none
  | .planeFlip _ => none
  | .loaderGo _ _ => none
  | .exitNoticeArrive _ => none
  | .noticeDeliveryFailure _ _ => none
  | .gleanerServe _ _ => none
  | .fillRequestReraise _ => none
  | .gleanExpand _ => none
  | .acceptanceRequest _ _ _ => none
  | .hotExpertWindowStart _ => none
  | .caporeqGo _ _ _ => none
  | .laneFailure _ _ => none
  | .capoDrainBegin _ => none
  | .capoDrainComplete _ => none
  | .capoDrainLimit _ => none
  | .capoWithdrawComplete _ => none
  | .capoTrainSuccess _ => none
  | .capoTrainFail _ => none
  | .flitReceive _ _ _ _ => none
  | .flitAckReceive _ _ => none
  | .pathNoticeReceive _ _ _ => none
  | .pathSetSwitch _ => none
  | .remoteRequestArrive _ => none
  | .remoteReplyArrive _ _ => none
  | .retryResponse _ => none
  | .requestTimeout _ => none
  | .hostBar2Access _ _ _ => none
  | .hostBar4Fill _ _ => none
  | .ownclaimClaim _ => none
  | .ownclaimHandover _ _ => none
  | .ownclaimAccept _ => none
  | .ownclaimRelease _ => none
  | .handoverLapse => none
  | .ownerChannelFail _ => none
  | .heartbeatWrite _ => none
  | .heartbeatTimeout => none
  | .packageNumberAssign _ _ => none
  | .quoteNonceWrite _ _ => none
  | .cfgcmdStore _ _ => none
  | .cfgcmdStoreComplete _ => none
  | .rctlReset _ _ => none
  | .packageReset _ => none
  | .clockThrottleStep => none
  | .clockStepUp => none
  | .overtempReset => none
  | .rootTableWrite _ _ _ => none
  | .pinMaskWrite _ _ _ => none
  | .classTemplateWrite _ _ _ _ => none
  | .groupTableWrite _ _ _ _ _ => none
  | .windowTableWrite _ _ _ _ => none
  | .hxwinWrite _ _ _ => none
  | .gleanerRegionWrite _ _ _ => none
  | .routingDirectoryWrite _ _ _ _ => none
  | .acceptancePortWrite _ _ _ _ _ => none
  | .errorRecordClear _ _ _ => none
  | .mgmtRegisterWrite _ _ _ => none
  | .managementCoreAccess _ _ _ => none
  | .managementFlush _ _ => none
  | .loaderFlipRequest _ _ => none

end Sys2Proof
end

