-- ==== Sys2Proof/WellFormed.lean ====
section
/-! DEFINITION. Well-formed instructions: what R62, R70 and the entries ask of the fields of a syllable. -/

namespace Sys2Proof

/-- Why a word is no syllable of its class (R70), or no header (R53). -/
inductive Reject where
  /-- the opcode point is unassigned -/
  | opcode
  /-- HOLD = 1 in the C class -/
  | hold
  /-- W = 0b11 in the V class -/
  | width
  /-- CH on a form that takes no hint -/
  | hint
  /-- LIT where operand E takes no literal, or with E or FEM bit 39 nonzero -/
  | literal
  /-- a FEM bit of a field that honours none -/
  | emptyMark
  /-- a field outside the range of its kind -/
  | field
  /-- a field value that the entry does not define -/
  | value
  /-- a reserved bit of the header, or LEND of 5 to 7 -/
  | header
deriving DecidableEq, Repr

/-- Field `j` of a syllable, A = 0 to E = 4 (R56). -/
def Syl.field (x : Syl) : Nat → BitVec 7
  | 0 => x.a
  | 1 => x.b
  | 2 => x.c
  | 3 => x.d
  | _ => x.e

/-- One field against its kind: its value, and its FEM bit (R62). -/
def Syl.fieldOk (x : Syl) (j : Nat) (f : Kind) : Bool :=
  if j == 4 && x.lit then f.isE && x.e == 0 && !x.fem.getLsbD 4
  else f.regOk (x.field j).toNat && (f.fem || !x.fem.getLsbD j)

/-- What is wrong with a syllable that stands in a slot of class `c` under row `r`, in the order of R70. -/
def Row.reject (r : Row) (c : Cls) (x : Syl) : Option Reject :=
  if c == .C && x.hold then some .hold
  else if c == .V && x.st == 3 then some .width
  else if x.ch != 0 && !r.hint then some .hint
  else if !x.fieldOk 4 (r.kinds.getD 4 .z) then (if x.lit then some .literal else some .field)
  else if !(List.range 4).all (fun j => x.fieldOk j (r.kinds.getD j .z)) then
    (if (List.range 4).all (fun j => (r.kinds.getD j .z).regOk (x.field j).toNat) then some .emptyMark
     else some .field)
  else if !r.ok x then some .value
  else none

/-- The row of a syllable's opcode, when it yields this very instruction (two forms may share an opcode and
differ in field D). -/
def Instr.row (i : Instr) : Option Row :=
  match i.syllable with
  | none => none
  | some (c, opc, x) => (rowOf c opc).filter (fun r => r.instr x == i)

/-- Well-formed: an event always; a syllable when its fields meet its row. -/
def Instr.wf (i : Instr) : Bool :=
  match i.syllable with
  | none => true
  | some (c, _, x) =>
    match i.row with
    | none => false
    | some r => (r.reject c x).isNone

end Sys2Proof
end

