-- ==== Sys2Proof/Decode.lean ====
section
/-! DEFINITION. Decoding and encoding of syllables and bundle headers (R52, R53, R56), total on any bytes. -/

namespace Sys2Proof

/-- The fields of a syllable word (R56). -/
def unpack (w : Word) : Syl where
  hold := w.getLsbD 53
  ga := w.extractLsb' 50 3
  na := w.getLsbD 49
  gb := w.extractLsb' 46 3
  nb := w.getLsbD 45
  ch := w.extractLsb' 43 2
  lit := w.getLsbD 42
  st := w.extractLsb' 40 2
  fem := w.extractLsb' 35 5
  e := w.extractLsb' 28 7
  d := w.extractLsb' 21 7
  c := w.extractLsb' 14 7
  b := w.extractLsb' 7 7
  a := w.extractLsb' 0 7

/-- The opcode of a syllable word (R56). -/
def opcode (w : Word) : BitVec 10 := w.extractLsb' 54 10

/-- The word of an opcode and the fields (R56). -/
def pack (opc : BitVec 10) (x : Syl) : Word :=
  opc ++ BitVec.ofBool x.hold ++ x.ga ++ BitVec.ofBool x.na ++ x.gb ++ BitVec.ofBool x.nb ++ x.ch ++
    BitVec.ofBool x.lit ++ x.st ++ x.fem ++ x.e ++ x.d ++ x.c ++ x.b ++ x.a

/-- The instruction in a slot of class `c`, or why there is none (R70, R71). -/
def decodeSyl (c : Cls) (w : Word) : Except Reject Instr :=
  match rowOf c (opcode w).toNat with
  | none => .error .opcode
  | some r =>
    match r.reject c (unpack w) with
    | some e => .error e
    | none => .ok (r.instr (unpack w))

/-- The class and the word of a syllable; none for an event, which has no encoding. -/
def encode (i : Instr) : Option (Cls × Word) :=
  match i.syllable with
  | none => none
  | some (c, opc, x) => some (c, pack (BitVec.ofNat 10 opc) x)

/-- A bundle header (R53). -/
structure Header where
  lit : BitVec 32
  lend : BitVec 3
  yp : Bool
  present : BitVec 8
deriving DecidableEq, Repr

/-- The header of a word, or the illegal-syllable fault of the header (R53). -/
def decodeHeader (w : Word) : Except Reject Header :=
  if w.extractLsb' 12 20 != 0 || 5 ≤ (w.extractLsb' 9 3).toNat then .error .header
  else .ok { lit := w.extractLsb' 32 32, lend := w.extractLsb' 9 3, yp := w.getLsbD 8,
             present := w.extractLsb' 0 8 }

/-- The word of a header (R53). -/
def encodeHeader (h : Header) : Word := h.lit ++ (0 : BitVec 20) ++ h.lend ++ BitVec.ofBool h.yp ++ h.present

/-- The class of slot `j` (R53, R71): A, S0, S1, V0, V1, V2, M, C. -/
def slotClass : Nat → Cls
  | 0 => .A
  | 1 | 2 => .S
  | 3 | 4 | 5 => .V
  | 6 => .M
  | _ => .C

/-- The slots of a PRESENT mask in increasing order (R52). -/
def presentSlots (p : BitVec 8) : List Nat := (List.range 8).filter p.getLsbD

/-- The length of a bundle in bytes (R52). -/
def bundleLength (p : BitVec 8) : Nat := 8 * (1 + (presentSlots p).length)

/-- The first slot that a header names, with its class (R52). -/
def firstSlot (h : Header) : Option Nat := (presentSlots h.present).head?

/-- The first instruction of the bundle whose header is the low doubleword: the syllable of the first slot
present, or the bundle of a header alone. -/
def firstInstr (header syllable : Word) : Option Instr :=
  match decodeHeader header with
  | .error _ => none
  | .ok h =>
    match firstSlot h with
    | none => some (.headerAloneBundle header)
    | some j => (decodeSyl (slotClass j) syllable).toOption

/-- What the decoder reads from an instruction whose bits are `w`: the first 64 bits are the bundle header, the
next 64 the syllable of the first slot present. -/
def decodeTableWord (nbits w : Nat) : Option Instr :=
  let v := w % 2 ^ nbits
  firstInstr (BitVec.ofNat 64 v) (BitVec.ofNat 64 (v / 2 ^ 64))

end Sys2Proof
end

