-- ==== Sys2Proof/Machine/State.lean ====
section
/-! DEFINITION. The state of the part as plain data, the reasons to stop, and the state after reset. -/

namespace Sys2Proof.Machine

/-! ## Tables -/

/-- A table by number: pairs in rising order of the number, none twice. -/
abbrev Tab (α : Type) := List (Nat × α)

/-- The entry of a number. -/
def Tab.get? {α : Type} (t : Tab α) (k : Nat) : Option α := (t.find? (·.1 == k)).map (·.2)

/-- The entry of a number, or what an unlisted number holds. -/
def Tab.getD {α : Type} (t : Tab α) (k : Nat) (d : α) : α := (t.get? k).getD d

/-- The table with one entry written. -/
def Tab.set {α : Type} : Tab α → Nat → α → Tab α
  | [], k, x => [(k, x)]
  | (j, y) :: t, k, x =>
    if k < j then (k, x) :: (j, y) :: t
    else if k = j then (k, x) :: t
    else (j, y) :: Tab.set t k x

/-- The table without an entry. -/
def Tab.erase {α : Type} (t : Tab α) (k : Nat) : Tab α := t.filter (fun e => e.1 != k)

/-- The table with every entry changed. -/
def Tab.mapVal {α : Type} (t : Tab α) (f : Nat → α → α) : Tab α := t.map (fun e => (e.1, f e.1 e.2))

/-! ## Registers of a task context -/

/-- The register files (R78). Bit `n` of `fes` and `fev` says that `sn`, `vn` is full. -/
structure Regs where
  s : Vector Word 64
  v : Vector Vec 64
  vt : Vector Tag 64
  fes : BitVec 64
  fev : BitVec 64
  p : BitVec 8
  k : Vector Mask 8
deriving DecidableEq, Repr

/-- The control registers as words (R83, R84, R85). -/
structure Csrs where
  tsw : Word
  pix : Word
  bi : Word
  bm : Word
  ypmax : Word
  ypcnt : Word
  live : Word
  loopc : Vector Word 4
  spillbase : Word
  spillsize : Word
  ovfptr : Word
  taskid : Word
  gridid : Word
  tcoord : Word
  tenant : Word
  cap : Word
  faddr : Word
  fsyl : Word
deriving DecidableEq, Repr

/-- Where a result lands. -/
inductive Dest where
  | s (n : Nat)
  | v (n : Nat)
  | p (n : Nat)
  | k (n : Nat)
  /-- a reserved store-data entry (R64) -/
  | store (id : Nat)
  /-- element of an output stream (R228) -/
  | stream (q id : Nat)
  /-- nowhere: s0, p0, k0 -/
  | none
deriving DecidableEq, Repr

/-- A result in flight with exposed latency: it lands at cycle `due` (R81, R82). In a shadow latch `due` is the
number of cycles left (R331). -/
structure Landing where
  due : Nat
  dest : Dest
  data : Vec
  tag : Tag
deriving DecidableEq, Repr

/-- The full/empty producers (R79) but for the fence, which fills at once. -/
inductive ProdKind where
  | divider | ldr | amove | sample | alease
deriving DecidableEq, Repr

/-- An outstanding producer (R79, R86): its register numbered as in R63, and for the divider the cycle and the
value of its fill. -/
structure Producer where
  kind : ProdKind
  reg : Nat
  id : Nat
  due : Nat
  val : Word
  /-- what it delivers instead of a register: the element of an output stream, or a store-data entry under the number 8 -/
  elem : Option (Nat × Nat)
  /-- the data of an `amove` whose command is done (R162) -/
  data : Option (Vec × Tag)
deriving DecidableEq, Repr

/-- The hold state of a slot (R65). -/
structure Hold where
  valid : Bool
  word : Word
deriving DecidableEq, Repr

/-! ## Accesses of a task -/

/-- A sheaf window (R187, R206): `log2z` of the element size. -/
structure Window where
  scatter : Bool
  base : Word
  index : Word
  log2z : Nat
  count : Nat
deriving DecidableEq, Repr

/-- Where a slice allocation of an access goes (R180): 0 resident, 1 evictable, 2 streamed, 3 none, and the
partition of the page's tenant. -/
structure Policy where
  cls : Nat
  tenant : Nat
deriving DecidableEq, Repr

/-- A piece of an access: physical address, bytes, the FE bit of its page, and its slice policy. A piece from 2^52 on is an
overflow line that reads as zero (R176); from 2^53 on, 2^20 × plot + offset in the constant store of that plot's
active plane (R256). -/
structure Piece where
  pa : Nat
  len : Nat
  fe : Bool
  pol : Policy
deriving DecidableEq, Repr

/-- Where an access goes: pieces of physical memory, or a sheaf window, whose elements are found when the access
performs (R187). -/
inductive Target where
  | mem (pieces : List Piece)
  | window (w : Window) (off len : Nat)
deriving DecidableEq, Repr

/-- What a load fills (R195, R199): a load-data entry or a register, with the size of a scalar or the tag of a
vector; or the stub that a marker keeps in the load-address queue. -/
inductive LoadKind where
  | data (id : Nat) (vec : Bool) (code : Nat)
  | reg (id : Nat) (reg : Nat) (code : Nat)
  | marker (id : Nat)
deriving DecidableEq, Repr

/-- An entry of the load-address queue (R192, R225), with its cache hint. -/
structure LoadAcc where
  seq : Nat
  va : Word
  tgt : Target
  kind : LoadKind
  hint : Nat
deriving DecidableEq, Repr

/-- An entry of the load-data queue (R195): unfilled until its load performs. -/
structure LoadData where
  id : Nat
  vec : Bool
  data : Option Vec
  tag : Tag
deriving DecidableEq, Repr

/-- Where an atomic or `ldfe` delivers (R201, R202). -/
inductive AmoDst where
  | none | reg (n : Nat) | store (id : Nat) | stream (q id : Nat)
deriving DecidableEq, Repr

/-- What a marker does when it performs (R192). -/
inductive MarkOp where
  | mark
  /-- opcode 0x20 to 0x27 of the atomics -/
  | amo (opc size : Nat) (sgn : Bool) (x y : Word) (dst : AmoDst)
  | ldfe (size : Nat) (consume : Bool) (dst : AmoDst)
  | stfe (size : Nat) (force : Bool) (x : Word)
  | setf
  | sete
  | tlbinv (mode scope tenant : Nat) (addr len : Word)
deriving DecidableEq, Repr

/-- An entry of the store-address queue (R192, R196): a store of `size` bytes with its cache hint and the elements of a
scatter that have entered the store buffer, or a marker with its scope. -/
inductive StoreAcc where
  | sta (seq : Nat) (va : Word) (tgt : Target) (vec : Bool) (size hint entered : Nat)
  | marker (id seq scope : Nat) (va : Word) (tgt : Target) (op : MarkOp) (sent : Option Nat)
deriving DecidableEq, Repr

/-- An entry of the store-data queue (R64, R196): data once landed. -/
structure StoreData where
  id : Nat
  vec : Bool
  tag : Tag
  data : Option Vec
deriving DecidableEq, Repr

/-- The bytes of one access in a place of the store buffer, by offset (R191): `who` is one more than its number, or the
access count itself for a write of a range form (R204), and the virtual address; none once the access has failed elsewhere
(R190). -/
structure PlacePart where
  who : Option (Nat × Word)
  bytes : Tab Byte
deriving DecidableEq, Repr

/-- A place of the store buffer (R191): what accesses write into one line, the oldest first. -/
structure Place where
  line : Nat
  fe : Bool
  parts : List PlacePart
  pol : Policy
  /-- the request that carries it to another package or to second-tier memory -/
  sent : Option Nat
deriving DecidableEq, Repr

/-- One element of a stream buffer: its bits, or the fault its read met (R228). -/
structure Elem where
  id : Nat
  data : Option Vec
  fail : Option (Nat × Word)
deriving DecidableEq, Repr

/-- A stream binding (R227): `next` is the index of the next element that the register yields or takes, `moved` of
the next that the unit reads or writes, `entered` how many elements of a scatter window have entered the store buffer for it;
`after` the access count when it was bound. -/
structure Stream where
  out : Bool
  vec : Bool
  base : Word
  stride1 : Int
  stride2 : Int
  count1 : Nat
  count2 : Nat
  es : Nat
  hint : Nat
  next : Nat
  moved : Nat
  buf : List Elem
  after : Nat
  entered : Nat
deriving DecidableEq, Repr

/-- An unperformed sigc write (R323): the access count, and the identities of the engine work that it waits for. -/
structure Sigc where
  va : Word
  pa : Nat
  val : Word
  seq : Nat
  work : List Nat
  /-- the request that carries it to another package -/
  sent : Option Nat
deriving DecidableEq, Repr

/-- Bytes that a queued access reads behind the fabric (R354): its number, the request's tag, and the answer. -/
structure Get where
  seq : Nat
  tag : Nat
  pa : Nat
  len : Nat
  data : Option (List Byte)
  /-- bytes of the task's own stores that have left the store buffer meanwhile, by address (R214) -/
  own : Tab Byte
deriving DecidableEq, Repr

/-- The constant range as it was at the issue of a load through a sheaf window, kept over a yield (R255): its virtual address and
its bytes, none where the plane then held no image. -/
structure ConstRange where
  seq : Nat
  base : Nat
  bytes : List Byte
deriving DecidableEq, Repr

/-- The queues and bindings of a context (R225). -/
structure Queues where
  loads : List LoadAcc
  ldata : List LoadData
  stores : List StoreAcc
  sdata : List StoreData
  buffer : List Place
  seq : Nat
  windows : Tab Window
  streams : Tab Stream
  sigcs : List Sigc
  gets : List Get
  consts : List ConstRange
  /-- accesses parked on an empty line, or reads of a stream held back, by number: the address there, and the cycle in which a
  fill request for it could not enter, if one could not (R270) -/
  parked : Tab (Word × Option Nat)
deriving DecidableEq, Repr

/-! ## Flow of a task -/

/-- What a Blocked context awaits (R22, R336). -/
inductive Awaits where
  | reg (n : Nat)
  | loads
  | loadData
  | storeAddr
  | storeData
  | stream (q : Nat)
  | line (pa : Nat)
  | barrier
  | acre
  | drill
  | engine (n : Nat)
  | grid (slot : Nat)
  | slotTable
  | transCache
  | fence (pa : Nat)
deriving DecidableEq, Repr

/-- The states of a resident or parked task (R19). `issuing` holds the stage between two slots of a bundle;
`trapping` waits for paired stores before a handler entry (R329); `quiescing` waits for the yield's conditions
(R291); `saving` writes its image; `ended` has executed end (R113); `aborted` is stopped, and its store buffer still drains (R224).
Done tasks leave the table, and Aborted ones with their last store. -/
inductive Phase where
  | ready
  | issuing
  | blocked (why : Awaits)
  | trapping
  | quiescing
  | saving
  | yielded
  | ended
  | aborted
deriving DecidableEq, Repr

/-- The trap frame (R329, R335). -/
structure Frame where
  pc : Word
  tsw : Word
  s : Vector Word 6
  p7 : Bool
  loopc : Vector Word 4
  loopStart : Vector Word 4
  hold : Vector Hold 8
  loads : List LoadAcc
  ldata : List LoadData
  stores : List StoreAcc
  sdata : List StoreData
  /-- identities from this one on were made in the handler -/
  since : Nat
deriving DecidableEq, Repr

/-- A fault on its way to the handler (R329). -/
structure TrapReq where
  code : Nat
  slot : Nat
  pc : Word
  fsyl : Option Word
  faddr : Option Word
deriving DecidableEq, Repr

/-- The range state (R144): the syllable and the partial result, as pairs, words and bits. -/
structure RangeState where
  valid : Bool
  word : Word
  group : Nat
  acc : Word
  pairs : List (BitVec 32 × Nat)
  bits : Vec
  kept : Nat
deriving DecidableEq, Repr

/-- What a context holds about its control flow, with no CSR number (R86). -/
structure Flow where
  loopStart : Vector Word 4
  hold : Vector Hold 8
  inflight : List Landing
  latches : List Landing
  /-- the first issue cycle after the stop, from which the latches count (R331) -/
  latchStart : Option Nat
  producers : List Producer
  inHandler : Bool
  frame : Frame
  range : RangeState
  trap : Option TrapReq
  /-- addresses of late-access records not yet taken (R190) -/
  lates : List Word
  /-- the slot at which the bundle is re-entered (R69), and whether a RETT has led to it -/
  resume : Nat
  again : Bool
deriving DecidableEq, Repr

/-! ## A task -/

/-- The operand state of a lease (R148, R154 to R156) with its KOFF, kept over a yield in the layout of R407. -/
structure OperandState where
  av : Bool
  bv : Bool
  sv : Bool
  aword : Word
  alist : Word
  ad : Nat
  bbase : Word
  bstride : Nat
  bd : Nat
  sabase : Word
  sbbase : Word
  sstrides : Nat
  koff : Nat
deriving DecidableEq, Repr

/-- A command error (R164): first failing address and syllable. -/
structure CmdErr where
  addr : Word
  syl : Word
deriving DecidableEq, Repr

/-- The charges made to a task in the present cycle, `at_` one more than its number: the units that its budgets lacked, and the
bits of TSW that the charges set (R306). -/
structure Dues where
  at_ : Nat
  bi : Nat
  bm : Nat
  bits : Word
deriving DecidableEq, Repr

/-- What placement gives a task (R317), and the life of it (R19). -/
structure Job where
  slot : Nat
  grid : Nat
  group : Nat
  coord : Nat
  kernel : Nat
  ver : Nat
  disp : Bool
  prio : Nat
  ceil : Nat
  /-- cycles Ready and not selected (R318) -/
  wait : Nat
  ob : Word
  /-- names of the task's tiles: the physical tile of a0, a1, ... (R147) -/
  tiles : List Nat
  /-- their issue tags (R149) -/
  issueTags : List Nat
  /-- KOFF of the lease once its queue has run (R149) -/
  issueKoff : Nat
  /-- lease state kept over a yield: operand state and pending error (R168) -/
  lease : Option (OperandState × Option CmdErr)
  /-- arrived at the barrier, and let pass by it (R111) -/
  arrived : Bool
  passed : Bool
  counters : Vector Word 6
  blockedFor : Nat
  /-- requests outstanding in engines (R113): their identities -/
  work : List Nat
  /-- the address its image was saved at (R335) -/
  savedAt : Nat
  /-- the context it left at a yield that freed it -/
  left : Nat
  /-- a command error of a lease entry that has become free (R164) -/
  acreErr : Option CmdErr
  /-- live masks of the yield under way: s, v, a (R87), and how many load-data entries (R381) -/
  slive : Word
  vlive : Word
  alive : Nat
  qlive : Nat
  /-- carve-out lines per context, from the launch record (R317) -/
  ssize : Nat
  dues : Dues
deriving DecidableEq, Repr

/-- A task that is resident on a context or parked after a yield that freed its context. -/
structure Task where
  /-- the context it occupies; none: freed at a yield (R27) -/
  ctx : Option Nat
  phase : Phase
  pc : Word
  regs : Regs
  csr : Csrs
  flow : Flow
  q : Queues
  job : Job
deriving DecidableEq, Repr

/-! ## Tillers -/

/-- A Drill error record of a map (R231, R244): fault code 21 or 22. -/
structure MapErr where
  code : Nat
  addr : Word
  syl : Word
deriving DecidableEq, Repr

/-- A completion map (R231). -/
structure CMap where
  bits : BitVec 512
  owner : Option Nat
  outstanding : Nat
  err : Option MapErr
  /-- chunks that a command has finished and another of the map may still write (R245) -/
  pend : BitVec 512
deriving DecidableEq, Repr

/-- The kinds of Drill commands, and the translation marker that stands between them (R186, R236, R264). -/
inductive DrillKind where
  | copy | drill | drw | furrow | marker
deriving DecidableEq, Repr

/-- A command of a Drill queue (R225, R226): operand values read at issue, the accesses that go first (R217), and
its progress once started. -/
structure DrillCmd where
  id : Nat
  kind : DrillKind
  uid : Nat
  tenant : Nat
  pl : Nat
  map : Nat
  x : Word
  y : Word
  z : Word
  hint : Nat
  syl : Word
  seq : Nat
  started : Bool
  /-- the program's bytes, read at the start -/
  prog : List Byte
  /-- the neuron mask, read at the start -/
  mask : List Byte
  /-- next element, elements written, quantise blocks done -/
  next : Nat
  done : Nat
  blocks : Nat
  /-- source bytes of a copy, read before any is written -/
  buf : List Byte
  /-- checksum state -/
  csum : BitVec 32
  /-- translations kept for the rest of the command (R186): page number in pages of the leaf's size, leaf and its level -/
  pages : List (Nat × Word × Nat)
  /-- chunks of the span that the command still owes (R217, R245) -/
  span : List Nat
  /-- the checksum is written, or there is none -/
  summed : Bool
  /-- the Furrow entries as the task's harrows left them (R264) -/
  rows : List Nat
  /-- transfers with writes behind the fabric: the index, and the span of the requests' tags (R217, R392) -/
  flight : List (Nat × Nat × Nat)
  /-- the failure that has stopped the command: the code and the address, while writes in flight complete (R244) -/
  failed : Option (Nat × Nat)
deriving DecidableEq, Repr

/-- A tiller (R318, R231, R236). -/
structure Tiller where
  freeAt : Nat
  last : Nat
  /-- the first cycle in which its divider takes another operation (R95) -/
  divAt : Nat
  maps : Tab CMap
  drill : List DrillCmd
deriving DecidableEq, Repr

/-! ## Plots -/

/-- An accumulator tile (R147): its tag, and elements by 256 × row + column, those not listed +0. -/
structure Tile where
  tag : Nat
  cells : Tab (BitVec 32)
deriving DecidableEq, Repr

/-- A queued Acre command (R148): the opcode, the operand values read at issue, the accesses that go first, the Furrow
table as it stood (R154), and the cycle of issue. For an `amove`, `id` is its producer. -/
structure AcreCmd where
  id : Nat
  opc : Nat
  syl : Word
  d : Nat
  tile : Nat
  reg : Nat
  x : Word
  y : Word
  z : Word
  seq : Nat
  pl : Nat
  furrow : Tab Nat
  since : Nat
  /-- its writes are made, and those behind the fabric not all acknowledged: the span of the requests' tags (R165) -/
  sent : Option (Nat × Nat)
deriving DecidableEq, Repr

/-- The holder of a lease (R148, R272). -/
inductive Holder where
  | task (uid : Nat)
  | gleaner (die : Nat)
deriving DecidableEq, Repr

/-- A lease-table entry (R148). -/
structure Lease where
  holder : Holder
  prio : Nat
  ops : OperandState
  cmds : List AcreCmd
  err : Option CmdErr
  releasing : Bool
  /-- the token is not yet delivered, and the producer that it fills (R151) -/
  pending : Bool
  token : Option Nat
deriving DecidableEq, Repr

/-- A request that waits for a lease (R151, R168, R270): `token` is the producer that the grant fills. -/
structure LeaseReq where
  holder : Holder
  prio : Nat
  token : Option Nat
deriving DecidableEq, Repr

/-- A configuration plane (R256, R380): bytes of the image by offset, those not listed 0. -/
structure Plane where
  valid : Bool
  bytes : Tab Byte
deriving DecidableEq, Repr

/-- A cached translation (R186): tenant, level of the entry, virtual address bits above it, and the entry. -/
structure TcEntry where
  tenant : Nat
  level : Nat
  index : Nat
  pte : Word
deriving DecidableEq, Repr

/-- The states of a loader (R370). -/
structure Loader where
  image : Word
  status : Word
deriving DecidableEq, Repr

/-- A plot (R8). -/
structure Plot where
  tiles : Tab Tile
  leases : Tab Lease
  waiting : List LeaseReq
  running : Option Nat
  /-- counted commands and cycles of the quantum (R153) -/
  quantum : Nat × Nat
  /-- the entry that ran last; the holder of the last command with occupancy, and the cycle it ended (R159) -/
  lastEntry : Nat
  lastHolder : Option Holder
  endedAt : Nat
  /-- the cycle from which the running command holds the array, once it does (R159, R166) -/
  began : Option Nat
  rcw : Tab (BitVec 32)
  furrow : Tab Nat
  active : Plane
  shadow : Plane
  flip : Bool
  tc : List TcEntry
  counters : Vector Word 5
  lastSlot : Nat
  /-- the slots whose quad gangs it is reserved for (R316) -/
  reserved : List Nat
  /-- one more than the cycle in which its dispatcher picked a group last (R316) -/
  pickedAt : Nat
  fills : List (Nat × Nat × Nat)
  /-- rows that arrived notices have yet to exit, each with its block (R266, R285) -/
  exits : List (Nat × Nat)
  loader : Loader
deriving DecidableEq, Repr

/-! ## Dies -/

/-- The forms of a collective (R248). -/
inductive CollKind where
  | coll | topk | a2a
deriving DecidableEq, Repr

/-- A queued collective (R246 to R248): what was read at issue with the group tables as they stood, and the descriptor's
eight words once the entry has started. -/
structure CollEntry where
  id : Nat
  uid : Nat
  tenant : Nat
  pl : Nat
  plot : Nat
  kind : CollKind
  d : Nat
  desc : Word
  doneVa : Word
  inst : Word
  seq : Nat
  table : Tab Word
  started : Bool
  err : Bool
  words : List Word
  /-- its buffers are written, and those behind the fabric not all acknowledged: the span of the requests' tags and the done word
  to come (R218, R251) -/
  sent : Option ((Nat × Nat) × Word)
deriving DecidableEq, Repr

/-- A queued sample (R252). -/
structure SampleEntry where
  id : Nat
  uid : Nat
  tenant : Nat
  pl : Nat
  plot : Nat
  req : Word
  readyVa : Word
  pos : Word
  reg : Nat
  /-- the access count at its bundle, and at the sample itself (R397) -/
  seq : Nat
  pushed : Nat
  /-- the producer of the register, none at s0 -/
  prod : Option Nat
  /-- its token-ready word is on its way to another package: the span of the requests' tags and the word -/
  sent : Option ((Nat × Nat) × Word)
deriving DecidableEq, Repr

/-- An entry of the Gleaner's fill queue (R270, R274): a group of a region (token, layer), or a glean to expand. -/
inductive FillEntry where
  | fill (region token layer plot : Nat)
  | glean (id uid tenant pl : Nat) (addr : Word) (count plot : Nat)
deriving DecidableEq, Repr

/-- An exit notice in the die's notice queue (R266). -/
structure Notice where
  uid : Nat
  ctx : Nat
  tenant : Nat
  mask : Word
  target : Word
deriving DecidableEq, Repr

/-- A tracked pair of the hot-expert bank (R302): directory entry, expert, count, and whether its event is posted. -/
structure HotPair where
  entry : Nat
  expert : Nat
  count : Nat
  posted : Bool
deriving DecidableEq, Repr

/-- An acceptance request taken from a port (R276). -/
structure AcceptReq where
  port : Nat
  tenant : Nat
  addr : Word
deriving DecidableEq, Repr

/-- An accepted request whose writes are made and not all acknowledged (R218, R278): the span of the requests' tags, the address
and the bits of its RESULT, and those of a failure. -/
structure Committing where
  req : AcceptReq
  span : Nat × Nat
  result : Word
  word : Word
  failed : Word
  /-- RESULT itself is what is on its way -/
  written : Bool
deriving DecidableEq, Repr

/-- A fill group that the Gleaner has started to serve, with the records and the hidden state as it read them (R269). -/
structure Serving where
  region : Nat
  token : Nat
  layer : Nat
  exit : List Byte
  hidden : List Byte
  record : List Byte
deriving DecidableEq, Repr

/-- A compute die (R7). -/
structure Die where
  colls : List CollEntry
  accepted : Nat
  samples : List SampleEntry
  fills : List FillEntry
  notices : List Notice
  hot : List HotPair
  windowStart : Nat
  counters : Vector Word 5
  taken : List AcceptReq
  nextPort : Nat
  committing : Option Committing
  serving : Option Serving
deriving DecidableEq, Repr

/-! ## Dispatch -/

/-- A slot of the slot table (R309): the bind record's sixteen words, and what the dispatch hardware keeps beside
them: the launching task, its access count and PL, the physical counter word once found, the ageing count, and
whether the launch still holds back accesses to the counter's line (R320). -/
structure Slot where
  words : Vector Word 16
  launcher : Option Nat
  /-- the launcher's access count at its bundle, and at the launch itself -/
  launcherSeq : Nat
  holdSeq : Nat
  /-- the line of the counter that the record named at the launch, where it could be told (R320) -/
  named : Option (List Nat)
  launcherPl : Nat
  launcherPrio : Nat
  launcherCeil : Nat
  /-- slot and id of the launcher's grid (R294) -/
  parent : Option (Nat × Nat)
  ctr : Nat
  /-- the slice policy of the counter's page (R180) -/
  ctrPol : Policy
  wait : Nat
  /-- one more than the cycle in which a group of it was placed last -/
  placedAt : Nat
  live : List (Nat × Bool)
  errored : Bool
  holding : Bool
  /-- groups that have completed -/
  count : Nat
  /-- indices added by grow: the first one, the growing task and its access count (R321) -/
  grows : List (Nat × Nat × Nat)
deriving DecidableEq, Repr

/-! ## Fabric -/

/-- The Capo states (R345). -/
inductive CapoState where
  | off | up | quiesce | drain | withdraw | retrain | publish | down
deriving DecidableEq, Repr

/-- A SerDes group (R339 to R350). -/
structure Group where
  st : CapoState
  /-- the running operation: none, or whether it is a personality operation -/
  op : Option Bool
  preset : Nat
  target : Nat
  width : Nat
  lanes : BitVec 16
  failed : BitVec 16
  tried : List Nat
  epoch : Nat
  err : Nat
  drainFrom : Nat
  /-- the entries of the windows that the running operation withdraws or has withdrawn, with their numbers (R347) -/
  withdrawn : List (Nat × Word × Word)
  txSeq : Nat
  /-- the flits not acknowledged: of data, and of the priority lane, which has buffers of its own (R350, R353) -/
  retry : List Nat
  lane : List Nat
  rxSeq : Nat
  /-- flits of a packet received in sequence and not yet complete -/
  partial_ : Nat
  /-- packets delivered -/
  delivered : Nat
  /-- a flit was discarded; wait for the replay -/
  gap : Bool
  /-- the flits put on the link in order, those replayed again -/
  wire : List Nat
  /-- the odd group's status line turned empty with this operation (R341) -/
  both : Bool
deriving DecidableEq, Repr

/-- What a remote request is for. -/
inductive Purpose where
  | load (uid seq : Nat)
  | store (uid : Nat)
  | marker (uid id : Nat)
  | sigc (uid : Nat)
  /-- a write that nothing awaits: the dispatcher's of a completion counter (R15), the management core's -/
  | posted
  /-- an engine's write, whose acknowledgement the engine awaits (R217, R218): the context that a record names -/
  | engine (src : Nat)
  /-- an engine's access held at the admission point: the engine makes it once it is let in (R346) -/
  | hold
  /-- a prefetch (R198): the context that a record names -/
  | pref (src : Nat)
  /-- a write of a form that keeps the issue stage, or of an engine's word that announces a task's result (R261, R282); `told`
  when a fault record of its access exists already -/
  | form (uid : Nat) (told : Bool)
deriving DecidableEq, Repr

/-- A request of this package to remote or second-tier memory (R354): held at the admission point of its group, or
sent; `early` when it was held there as the group entered QUIESCE in a personality operation (R346); `left` the cycles of its
response timer. -/
structure Req where
  tag : Nat
  purpose : Purpose
  va : Word
  addr : Nat
  op : FarOp
  pol : Policy
  group : Nat
  held : Bool
  early : Bool
  left : Nat
  stopped : Bool
deriving DecidableEq, Repr

/-- Inbound requests (R354): those that wait on an empty line, the answers given by tag, the replies that have left, and by
group those that wait for room in its retry buffer or for its link (R346, R350). -/
structure Inbound where
  waiting : List FarRequest
  answered : List ((Nat × Nat) × FarReply)
  sent : List (Nat × Nat × FarReply)
  queued : List (Nat × Nat × Nat × FarReply)
deriving DecidableEq, Repr

/-- What a notice on the priority lane says: a group leaves or joins path sets (R352), or rows exit (R266). -/
inductive NoticeBody where
  | path (g : Nat) (add : Bool)
  | exit (n : Notice)
deriving DecidableEq, Repr

/-- A notice for another package that is queued on its path or not yet acknowledged (R353): the group whose QUIESCE found it
queued there, which still carries it (R346, R352), and the group and the flit it was sent with. -/
structure NoticeOut where
  pkg : Nat
  body : NoticeBody
  bound : Option Nat
  sent : Option (Nat × Nat)
deriving DecidableEq, Repr

/-- An engine's write that has ended in a fault record (R354): its tag, the virtual address and the cause. -/
structure LostWrite where
  tag : Nat
  va : Word
  cause : Nat
deriving DecidableEq, Repr

/-- The package edge. -/
structure Fabric where
  groups : Tab Group
  reqs : List Req
  inbound : Inbound
  /-- the fabric manager's route table: the groups named for a package (R351) -/
  routes : Tab (List Nat)
  /-- groups that a peer's path notice took out of its path set (R352) -/
  peerOut : List (Nat × Nat)
  /-- path sets in force where they lag the present one (R351) -/
  paths : Tab (List Nat)
  /-- notices for other packages, in the order in which they were raised -/
  notices : List NoticeOut
  /-- engine writes that ended in a fault record, and the addresses of engine accesses that did while they were held, with the
  cause, until the engine takes note (R346, R354) -/
  lost : List LostWrite
  gone : List (Nat × Nat)
  pkg : Option Nat
deriving DecidableEq, Repr

/-! ## Management -/

/-- An entry of the measurement log (R364). -/
structure LogEntry where
  kind : Nat
  ver : Nat
  subj : Nat
  digest : List Byte
deriving DecidableEq, Repr

/-- A report to the management core. -/
inductive Report where
  | launch (slot cause : Nat)
  | abort (grid group ctx code cause : Nat) (addr : Word)
  | exhausted (uid ctx grid tenant : Nat) (bi bm : Word)
  | probe (path : List Nat) (marks : List Nat)
  | replicate (die entry expert count version : Nat)
  | record (off : Nat)
deriving DecidableEq, Repr

/-- A wait probe in flight (R336). -/
structure Probe where
  origin : Nat
  at_ : Nat
  path : List Nat
  marks : List Nat
  hops : Nat
deriving DecidableEq, Repr

/-- Ownership, trust, configuration and power (17). -/
structure Mgmt where
  /-- plain registers by offset (R370), those not listed at `resetReg` -/
  regs : Tab Word
  own : Word
  /-- the last claim taken: its core cycle, and the chain, the log and its count as they stood before (R361) -/
  claim : Option (Nat × List Byte × List LogEntry × Nat)
  pendSince : Nat
  heartbeat : Word
  heartbeatAt : Nat
  nonce : List Byte
  quote : List Byte
  quoteValid : Bool
  log : List LogEntry
  logCount : Nat
  chain : List Byte
  cfgbuf : Tab Byte
  cfgstat : Nat
  /-- the image being stored, and its slot -/
  storing : Option (Bool × List Byte)
  nvA : List Byte
  nvB : List Byte
  inUseB : Bool
  rollback : Nat
  record : CfgRec
  rstat : Nat
  step : Nat
  recovery : Bool
  clock : Nat
  hostUp : Bool
  overtemp : Bool
deriving DecidableEq, Repr

/-- A line of a chip-slice cache (R179, R180), the most recently used first in its list: the way and the class. -/
structure CacheLine where
  line : Nat
  way : Nat
  cls : Nat
deriving DecidableEq, Repr

/-! ## The machine -/

/-- What the model moves next: a tiller issues, an event takes place, a cycle passes, a translation cache drops
an entry, or the management core writes a word of a row-control store, for which the spec has no register (R255, R370). -/
inductive Action where
  | tiller (t : Nat)
  | event (i : Instr)
  | tick
  | evict (plot n : Nat)
  | row (plot n : Nat) (w : BitVec 32)
deriving DecidableEq, Repr

/-- Why the slots of the present bundle stop. -/
inductive Halt where
  | run
  /-- a fault was taken at a slot, or the task left the stage -/
  | stopped
  /-- the bundle does not issue: the context is Blocked -/
  | block (why : Awaits)
  /-- the bundle does not issue and keeps the stage (R331) -/
  | stall
  /-- a form keeps the stage until events complete it (R142, R261) -/
  | suspended
deriving DecidableEq, Repr

/-- A range form that holds the issue stage (R142): its operands as read at issue, and its progress. -/
structure RangeRun where
  word : Word
  addr : Word
  count : Nat
  extra : Word
  index : Vec
  indexTag : Nat
  part : RangeState
  /-- the first cycle in which its next group may be done -/
  ready : Nat
deriving DecidableEq, Repr

/-- Charges that a bundle which keeps the stage has made at its issue for slots that have yet to commit (R288): the units,
what of them the budgets held, and the bits of TSW that they set. -/
structure Ahead where
  bi : Nat
  bm : Nat
  tookBi : Nat
  tookBm : Nat
  bits : Word
deriving DecidableEq, Repr

/-- Nothing charged ahead. -/
def Ahead.zero : Ahead := ⟨0, 0, 0, 0, 0⟩

/-- The syllable being executed: the task, the slot, the header, and what the bundle has done so far. -/
structure Stage where
  uid : Nat
  slot : Nat
  header : Header
  /-- first issue cycle, and whether this V slot issues in the second (R67) -/
  cycle : Nat
  second : Bool
  halt : Halt
  /-- the whole bundle has passed its issue check -/
  checked : Bool
  /-- registers marked empty by this bundle, numbered as in R63 (R64) -/
  marked : List Nat
  /-- cycles of the issue stage beyond one: those of its two-cycle issue and of STALL (R60), and those of its forms -/
  stall : Nat
  extra : Nat
  /-- target of a taken branch; address after a skipped loop body -/
  branch : Option Word
  skip : Option Word
  /-- whether a syllable was executed, repeated or guarded off -/
  charged : Bool
  /-- BI and BM units charged by this bundle, and those charged ahead of its slots -/
  paid : Nat × Nat
  ahead : Ahead
  /-- the slot whose issue check fails with a fault (R61) -/
  doomed : Option Nat
  /-- slots of the bundle still to execute when it is suspended -/
  rest : List (Nat × Word)
  /-- a trap syllable was executed: its FADDR (R333) -/
  trapAfter : Option Word
  /-- end was executed (R113) -/
  ending : Bool
  /-- rett was executed (R333) -/
  returning : Bool
  /-- the range form that keeps the stage -/
  range : Option RangeRun
  /-- the first cycle in which a range form behind another may start (R142) -/
  ranged : Nat
  /-- writes of its forms that are on their way to another package: the span of the requests' tags (R261, R282) -/
  sent : Option (Nat × Nat)
  /-- the routing directory's registers as they stood at the issue (R282) -/
  dirs : Tab Word
  /-- the register files at the first issue cycle, from which every slot reads its operands (R64) -/
  regs : Regs
  /-- the access count at the bundle's issue -/
  seq : Nat
  /-- V slots that issue in the second cycle (R67) -/
  late : List Nat
  /-- the control registers as they stood for the bundle (R114) -/
  csr : Csrs
  /-- the counters of the plot, the die and the task as they stood at the bundle's issue (R301) -/
  plotCounters : Vector Word 5
  dieCounters : Vector Word 5
  taskCounters : Vector Word 6
  hot : List HotPair
deriving DecidableEq, Repr

/-- THE STATE. -/
structure State where
  cycle : Nat
  /-- physical memory: bytes by address, those not listed 0 (R171) -/
  mem : List Host.Cell
  /-- lines whose full/empty bit is empty, in rising order (R185) -/
  empties : List Nat
  /-- chip-slice caches by slice -/
  slices : Tab (List CacheLine)
  tasks : Tab Task
  tillers : Tab Tiller
  plots : Tab Plot
  dies : Tab Die
  slots : Tab Slot
  fab : Fabric
  mgmt : Mgmt
  reports : List Report
  probes : List Probe
  stage : Stage
  /-- bundles that hold a tiller's stage between two slots, by tiller -/
  held : Tab Stage
  agenda : List Action
  fresh : Nat
deriving DecidableEq, Repr

/-! ## Reasons to stop -/

/-- Why a step stops with a fault: there is no reason. Every exception of the spec is taken as a next state, and an access
where nothing exists is refused to the master that makes it or fails as the spec says, with the machine running on. Safe: no
step stops where the hardware goes on. -/
inductive Fault
deriving DecidableEq, Repr

/-- Why a step has no meaning. -/
inductive Refusal where
  /-- Raised by an arm of `exec` that has no meaning yet. Safe: no step is taken. -/
  | notModelled (mnemonic : String)
deriving DecidableEq, Repr

/-! ## Reset -/

/-- Register files with every register 0 and full, p0 true and k0 all ones (R78). -/
def Regs.zero : Regs where
  s := Vector.replicate 64 0
  v := Vector.replicate 64 0
  vt := Vector.replicate 64 0
  fes := BitVec.allOnes 64
  fev := BitVec.allOnes 64
  p := 1
  k := (Vector.replicate 8 0).set 0 (BitVec.allOnes 128)

/-- Control registers with every field 0. -/
def Csrs.zero : Csrs where
  tsw := 0
  pix := 0
  bi := 0
  bm := 0
  ypmax := 0
  ypcnt := 0
  live := 0
  loopc := Vector.replicate 4 0
  spillbase := 0
  spillsize := 0
  ovfptr := 0
  taskid := 0
  gridid := 0
  tcoord := 0
  tenant := 0
  cap := 0
  faddr := 0
  fsyl := 0

/-- Hold state with no slot valid (R65). -/
def noHold : Vector Hold 8 := Vector.replicate 8 ⟨false, 0⟩

/-- A trap frame that holds nothing. -/
def Frame.zero : Frame where
  pc := 0
  tsw := 0
  s := Vector.replicate 6 0
  p7 := false
  loopc := Vector.replicate 4 0
  loopStart := Vector.replicate 4 0
  hold := noHold
  loads := []
  ldata := []
  stores := []
  sdata := []
  since := 0

/-- A range state that is not valid (R144). -/
def RangeState.zero : RangeState := ⟨false, 0, 0, 0, [], 0, 0⟩

/-- The flow state of a task at launch (R86). -/
def Flow.zero : Flow where
  loopStart := Vector.replicate 4 0
  hold := noHold
  inflight := []
  latches := []
  latchStart := none
  producers := []
  inHandler := false
  frame := Frame.zero
  range := RangeState.zero
  trap := none
  lates := []
  resume := 0
  again := false

/-- Empty queues and no bindings (R203, R225). -/
def Queues.zero : Queues where
  loads := []
  ldata := []
  stores := []
  sdata := []
  buffer := []
  seq := 0
  windows := []
  streams := []
  sigcs := []
  gets := []
  consts := []
  parked := []

/-- An operand state with nothing bound (R151). -/
def OperandState.zero : OperandState := ⟨false, false, false, 0, 0, 0, 0, 0, 0, 0, 0, 0, 0⟩

/-- A job with every field 0. -/
def Job.zero : Job where
  slot := 0
  grid := 0
  group := 0
  coord := 0
  kernel := 0
  ver := 0
  disp := false
  prio := 0
  ceil := 0
  wait := 0
  ob := 0
  tiles := []
  issueTags := []
  issueKoff := 0
  lease := none
  arrived := false
  passed := false
  counters := Vector.replicate 6 0
  blockedFor := 0
  work := []
  savedAt := 0
  left := 0
  acreErr := none
  slive := 0
  vlive := 0
  alive := 0
  qlive := 0
  ssize := 0
  dues := ⟨0, 0, 0, 0⟩

/-- A task as placement leaves it, before its record is loaded (R317). -/
def Task.zero : Task where
  ctx := none
  phase := .ready
  pc := 0
  regs := Regs.zero
  csr := Csrs.zero
  flow := Flow.zero
  q := Queues.zero
  job := Job.zero

/-- A map that is clear, unowned and idle (R231). -/
def CMap.zero : CMap := ⟨0, none, 0, none, 0⟩

/-- A tiller that has selected nothing. -/
def Tiller.zero : Tiller := ⟨0, 7, 0, [], []⟩

/-- A tile of zeros with tag FP32. -/
def Tile.zero : Tile := ⟨31, []⟩

/-- A plane that holds no image. -/
def Plane.zero : Plane := ⟨false, []⟩

/-- A plot after reset. -/
def Plot.zero : Plot where
  tiles := []
  leases := []
  waiting := []
  running := none
  quantum := (0, 0)
  lastEntry := 7
  lastHolder := none
  endedAt := 0
  began := none
  rcw := []
  furrow := []
  active := Plane.zero
  shadow := Plane.zero
  flip := false
  tc := []
  counters := Vector.replicate 5 0
  lastSlot := 1023
  reserved := []
  pickedAt := 0
  fills := []
  exits := []
  loader := ⟨0, 0⟩

/-- A die after reset. -/
def Die.zero : Die where
  colls := []
  accepted := 0
  samples := []
  fills := []
  notices := []
  hot := []
  windowStart := 0
  counters := Vector.replicate 5 0
  taken := []
  nextPort := 0
  committing := none
  serving := none

/-- A free slot (R309). -/
def Slot.zero : Slot := ⟨Vector.replicate 16 0, none, 0, 0, none, 0, 0, 0, none, 0, ⟨3, 0⟩, 0, 0, [], false, false, 0, []⟩

/-- A group that is OFF (R345). -/
def Group.zero : Group where
  st := .off
  op := none
  preset := 0
  target := 0
  width := 0
  lanes := 0
  failed := 0
  tried := []
  epoch := 0
  err := 0
  drainFrom := 0
  withdrawn := []
  txSeq := 0
  retry := []
  lane := []
  rxSeq := 0
  partial_ := 0
  delivered := 0
  gap := false
  wire := []
  both := false

/-- The package edge after reset. -/
def Fabric.zero : Fabric := ⟨[], [], ⟨[], [], [], []⟩, [], [], [], [], [], [], none⟩

/-- The configuration record that the model starts from (DESIGN CHOICE, log entry 4). -/
def startRecord : CfgRec := ⟨0, false, List.replicate 256 0, List.replicate 32 0, [], 3200, (0, 0)⟩

/-- The management state after a completed reset sequence (R367, R372). -/
def Mgmt.zero : Mgmt where
  regs := []
  own := 0
  claim := none
  pendSince := 0
  heartbeat := 0
  heartbeatAt := 0
  nonce := List.replicate 64 0
  quote := List.replicate 132 0
  quoteValid := false
  log := []
  logCount := 0
  chain := List.replicate 64 0
  cfgbuf := []
  cfgstat := 0
  storing := none
  nvA := []
  nvB := []
  inUseB := false
  rollback := 0
  record := startRecord
  rstat := 0
  step := 7
  recovery := false
  clock := 2700
  hostUp := true
  overtemp := false

/-- A stage that executes nothing. -/
def Stage.zero : Stage where
  uid := 0
  slot := 0
  header := ⟨0, 0, false, 0⟩
  cycle := 0
  second := false
  halt := .run
  checked := false
  marked := []
  stall := 0
  extra := 0
  branch := none
  skip := none
  charged := false
  paid := (0, 0)
  ahead := Ahead.zero
  doomed := none
  rest := []
  trapAfter := none
  ending := false
  returning := false
  range := none
  ranged := 0
  sent := none
  dirs := []
  regs := Regs.zero
  seq := 0
  late := []
  csr := Csrs.zero
  plotCounters := Vector.replicate 5 0
  dieCounters := Vector.replicate 5 0
  taskCounters := Vector.replicate 6 0
  hot := []

/-- The machine after package reset (R367, R372): every context free, every memory zero, every line full. -/
def State.reset : State where
  cycle := 0
  mem := []
  empties := []
  slices := []
  tasks := []
  tillers := []
  plots := []
  dies := []
  slots := []
  fab := Fabric.zero
  mgmt := Mgmt.zero
  reports := []
  probes := []
  stage := Stage.zero
  held := []
  agenda := []
  fresh := 0

end Sys2Proof.Machine
end

