-- ==== Sys2Proof/Machine/Memory.lean ====
section
/-! DEFINITION. Physical memory, the physical map, the plain management registers, translation and its checks
(08_memories). -/

namespace Sys2Proof.Machine

/-! ## Bytes -/

/-- A little-endian number from bytes (R35). -/
def leNat : List Byte → Nat
  | [] => 0
  | b :: bs => b.toNat + 256 * leNat bs

/-- The `n` low bytes of a number, lowest first (R35). -/
def toLe : Nat → Nat → List Byte
  | 0, _ => []
  | n + 1, x => BitVec.ofNat 8 x :: toLe n (x / 256)

/-- The byte at an address; an unlisted one reads 0 (R171). -/
def Memory.get (m : List Host.Cell) (a : Nat) : Byte := ((m.find? (·.1 == a)).map (·.2)).getD 0

/-- Memory with one byte written, in canonical form. -/
def Memory.put : List Host.Cell → Nat → Byte → List Host.Cell
  | [], a, b => if b = 0 then [] else [(a, b)]
  | (c, d) :: m, a, b =>
    if a < c then (if b = 0 then (c, d) :: m else (a, b) :: (c, d) :: m)
    else if a = c then (if b = 0 then m else (a, b) :: m)
    else (c, d) :: Memory.put m a b

/-- The canonical form: addresses strictly rising, and no byte 0. -/
def Memory.wf : List Host.Cell → Bool
  | [] => true
  | [(_, b)] => b != 0
  | (a, b) :: (c, d) :: m => b != 0 && a < c && Memory.wf ((c, d) :: m)

/-- `n` bytes from an address. -/
def Memory.read (m : List Host.Cell) : Nat → Nat → List Byte
  | _, 0 => []
  | a, n + 1 => Memory.get m a :: Memory.read m (a + 1) n

/-- Memory with bytes written from an address. -/
def Memory.write (m : List Host.Cell) : Nat → List Byte → List Host.Cell
  | _, [] => m
  | a, b :: bs => Memory.write (Memory.put m a b) (a + 1) bs

/-- Memory with a range zeroed. -/
def Memory.clear (m : List Host.Cell) (a n : Nat) : List Host.Cell :=
  m.filter (fun c => !(a ≤ c.1 && c.1 < a + n))

/-- A number into a rising list. -/
def insertNat (x : Nat) : List Nat → List Nat
  | [] => [x]
  | y :: ys => if x < y then x :: y :: ys else if x = y then y :: ys else y :: insertNat x ys

/-- The bytes at a physical address. -/
def State.bytes (s : State) (a n : Nat) : List Byte := Memory.read s.mem a n

/-- The doubleword at a physical address. -/
def State.word (s : State) (a : Nat) : Word := BitVec.ofNat 64 (leNat (s.bytes a 8))

/-- Bytes written at home. -/
def State.store (s : State) (a : Nat) (bs : List Byte) : State := { s with mem := Memory.write s.mem a bs }

/-- Whether the line of an address is full (R185). -/
def State.full (s : State) (pa : Nat) : Bool := !s.empties.contains (pa / 64)

/-- The line of an address set full (R185). -/
def State.setFull (s : State) (pa : Nat) : State := { s with empties := s.empties.filter (· != pa / 64) }

/-- The line of an address set empty (R185). -/
def State.setEmpty (s : State) (pa : Nat) : State := { s with empties := insertNat (pa / 64) s.empties }

/-! ## The physical map (R172) -/

/-- The ranges of R172. -/
inductive Range where
  | hbm
  | slice (n : Nat)
  | scratch (t : Nat)
  | mgmt
  | tier2
  | remote (pkg : Nat) (addr : Nat)
  | hole
deriving DecidableEq, Repr

/-- The range that a physical address lies in (R172); the holes of the scratchpad stride are holes. -/
def rangeOf (pa : Nat) : Range :=
  if pa < 0x10000000000 then .hbm
  else if pa < 0x10020000000 then .slice ((pa - 0x10000000000) / 0x200000)
  else if 0x12000000000 ≤ pa && pa < 0x12020000000 then
    (if (pa - 0x12000000000) % 0x100000 < 0xC0000 then .scratch ((pa - 0x12000000000) / 0x100000) else .hole)
  else if 0x18000000000 ≤ pa && pa < 0x18100000000 then .mgmt
  else if 0x100000000000 ≤ pa && pa < 0x200000000000 then .tier2
  else if 0x8000000000000 ≤ pa && pa < 0x10000000000000 then
    .remote (pa / 2 ^ 41 % 1024) (pa % 2 ^ 41)
  else .hole

/-- A physical address with this package's own remote range folded onto the local map (R172). -/
def State.localAddr (s : State) (pa : Nat) : Nat :=
  match rangeOf pa with
  | .remote p a => if s.fab.pkg = some p then a else pa
  | _ => pa

/-- Whether an access to the address crosses a SerDes group (R172, R354). -/
def State.needsFabric (s : State) (pa : Nat) : Bool :=
  match rangeOf (s.localAddr pa) with
  | .tier2 => true
  | .remote _ _ => true
  | _ => false

/-- Whether the address is homed on another package (R192). -/
def State.isRemote (s : State) (pa : Nat) : Bool :=
  match rangeOf (s.localAddr pa) with
  | .remote _ _ => true
  | _ => false

/-- The physical base of a tiller's scratchpad (R171). -/
def scratchBase (t : Nat) : Nat := 0x12000000000 + t * 0x100000

/-! ## Management registers that hold plain data (R370) -/

/-- The value of a plain register that nothing has written (R303, R313, R344, R354, R369, R372). -/
def resetReg (off : Nat) : Word :=
  if 0x120000 ≤ off && off < 0x120400 && off % 64 == 8 then 13500
  else if 0x141000 ≤ off && off < 0x141200 then BitVec.allOnes 64
  else if 0x160000 ≤ off && off < 0x160100 then 0xFFFF0000
  else if off == 0x160100 then 0x1000000
  else if 0x180000 ≤ off && off < 0x184000 && off % 0x1000 == 0 then 0x100000
  else if off == 0x20010 then 3200
  else 0

/-- A plain register, at an offset that is a multiple of 8. -/
def State.reg (s : State) (off : Nat) : Word := (Tab.get? s.mgmt.regs off).getD (resetReg off)

/-- A plain register written. -/
def State.setReg (s : State) (off : Nat) (v : Word) : State :=
  { s with mgmt := { s.mgmt with regs := Tab.set s.mgmt.regs off v } }

/-- The root of a tenant (R181). -/
def State.root (s : State) (tenant : Nat) : Nat := (s.reg (0x130000 + 8 * tenant)).toNat

/-- The pin mask of a slice (R179): 4 bytes each. -/
def State.pins (s : State) (slice : Nat) : BitVec 32 :=
  (s.reg (0x140000 + 8 * (slice / 2))).extractLsb' (32 * (slice % 2)) 32

/-- The partition mask of a tenant on a die (R180): 2 bytes per tenant and die, tenants of die 0 first. -/
def State.partition (s : State) (die tenant : Nat) : BitVec 16 :=
  (s.reg (0x141000 + 8 * ((64 * die + tenant) / 4))).extractLsb' (16 * ((64 * die + tenant) % 4)) 16

/-- Whether an address lies in a pinned page of its chip slice (R179). -/
def State.pinned (s : State) (pa : Nat) : Bool :=
  match rangeOf pa with
  | .slice n => (s.pins n).getLsbD ((pa - 0x10000000000) % 0x200000 / 0x10000)
  | _ => false

/-- An entry of the window table (R342): its two words. -/
def State.windowEntry (s : State) (n : Nat) : Word × Word := (s.reg (0x150000 + 16 * n), s.reg (0x150008 + 16 * n))

/-- Whether a second-tier address lies in the range of a window entry. -/
def entryCovers (w : Word × Word) (pa : Nat) : Bool :=
  let base := bitsOf w.1.toNat 30 22 * 2 ^ 30
  base ≤ pa && pa < base + bitsOf w.2.toNat 0 32 * 2 ^ 30

/-- Whether a second-tier address lies in the range of window entry `n`. -/
def State.windowCovers (s : State) (n pa : Nat) : Bool := entryCovers (s.windowEntry n) pa

/-- The window entry that publishes a second-tier address (R342). -/
def State.publishedWindow (s : State) (pa : Nat) : Option Nat :=
  (List.range 128).find? (fun n => (s.windowEntry n).1.getLsbD 63 && s.windowCovers n pa)

/-- The home die of a line (R173): of HBM4E by the interleave mode, of second-tier memory by the serving group. -/
def State.homeDie (s : State) (pa : Nat) : Nat :=
  match rangeOf pa with
  | .hbm =>
    if s.mgmt.record.dieLocal then bitsOf pa 38 2
    else (bitsOf pa 12 4 ^^^ bitsOf pa 16 4 ^^^ bitsOf pa 20 4 ^^^ bitsOf pa 24 4) / 4
  | .slice n => n / 64
  | .scratch t => t / 128
  | .tier2 =>
    match s.publishedWindow pa with
    | some n => bitsOf (s.windowEntry n).1.toNat 56 5 / 8
    | none => 0
  | _ => 0

/-- The chip slice that may cache a line (R179). -/
def State.cacheSlice (s : State) (pa : Nat) : Nat :=
  64 * s.homeDie pa + (bitsOf pa 6 6 ^^^ bitsOf pa 12 6 ^^^ bitsOf pa 18 6)

/-! ## Page-table entries (R182, R183) -/

/-- A field of a page-table entry. -/
def pteField (e : Word) (lo w : Nat) : Nat := bitsOf e.toNat lo w

/-- V of an entry. -/
def pteV (e : Word) : Bool := e.getLsbD 0
/-- LEAF of an entry. -/
def pteLeaf (e : Word) : Bool := e.getLsbD 1
/-- PS64 of an entry. -/
def ptePs64 (e : Word) : Bool := e.getLsbD 2
/-- RO of an entry. -/
def pteRo (e : Word) : Bool := e.getLsbD 3
/-- X of an entry. -/
def pteX (e : Word) : Bool := e.getLsbD 4
/-- COW of an entry. -/
def pteCow (e : Word) : Bool := e.getLsbD 5
/-- DEDUP of an entry. -/
def pteDedup (e : Word) : Bool := e.getLsbD 6
/-- FE of an entry. -/
def pteFe (e : Word) : Bool := e.getLsbD 7
/-- HOME of an entry (R178). -/
def pteHome (e : Word) : Nat := pteField e 8 2
/-- RES of an entry. -/
def pteRes (e : Word) : Nat := pteField e 10 2
/-- The frame of an entry, as a physical address. -/
def pteFrame (e : Word) : Nat := pteField e 12 40 * 4096
/-- TENANT of an entry. -/
def pteTenant (e : Word) : Nat := pteField e 52 6
/-- SUP of an entry. -/
def pteSup (e : Word) : Bool := e.getLsbD 58

/-- Whether a table may lie at an address (R181). -/
def State.tableOk (s : State) (pa : Nat) : Bool :=
  match rangeOf pa with
  | .hbm => true
  | .slice _ => s.pinned pa
  | _ => false

/-- The bits of the page offset of a leaf. -/
def leafBits (level : Nat) (e : Word) : Nat :=
  if level = 2 then 30 else if level = 1 then 21 else if ptePs64 e then 16 else 12

/-- Whether a valid entry at a level keeps the rules of R183. -/
def State.pteOk (s : State) (level : Nat) (e : Word) : Bool :=
  if pteLeaf e then
    pteField e 59 5 == 0 && level != 3 && (level == 0 || !ptePs64 e) && pteRes e != 3 &&
      (!pteCow e || pteRo e) && (!pteDedup e || pteCow e) && pteFrame e % 2 ^ leafBits level e == 0
  else
    pteField e 52 12 == 0 && pteField e 2 10 == 0 && level != 0 && s.tableOk (pteFrame e)

/-- The root rules of R181. -/
def State.rootOk (s : State) (r : Nat) : Bool :=
  r % 0x100000 == 0 &&
    match rangeOf r with
    | .hbm => true
    | .slice _ => (List.range 16).all (fun i => s.pinned (r + i * 0x10000))
    | _ => false

/-- The table index of a virtual address at a level (R181). -/
def vaIndex (level va : Nat) : Nat := if level = 3 then bitsOf va 39 17 else bitsOf va (12 + 9 * level) 9

/-- The virtual address bits that name an entry at a level, for the translation cache. -/
def tcIndex (level va : Nat) : Nat := va / 2 ^ (12 + 9 * level)

/-- Whether a cached leaf maps the page of an address, or a cached non-leaf entry stands on its walk. -/
def TcEntry.hits (e : TcEntry) (tenant level va : Nat) : Bool :=
  e.tenant == tenant && e.level == level &&
    (if pteLeaf e.pte && level == 0 && ptePs64 e.pte then e.index / 16 == tcIndex 0 va / 16
     else e.index == tcIndex level va)

/-- A plot. -/
def State.plot (s : State) (p : Nat) : Plot := Tab.getD s.plots p Plot.zero

/-- A plot written. -/
def State.setPlot (s : State) (p : Nat) (x : Plot) : State := { s with plots := Tab.set s.plots p x }

/-- The entry that a walk on a plot reads at a level: the cached one, or the word of memory (R186); at level 0
of a 64 KiB page the first entry of its group of 16 (R183). The flag says that the first entry lacked PS64. -/
def State.walkEntry (s : State) (plot tenant level table va : Nat) : Word × Bool :=
  match (s.plot plot).tc.find? (fun e => e.hits tenant level va) with
  | some e => (e.pte, true)
  | none =>
    let e := s.word (table + 8 * vaIndex level va)
    if level = 0 && ptePs64 e then
      let g := s.word (table + 8 * (vaIndex 0 va / 16 * 16))
      (g, ptePs64 g)
    else (e, true)

/-- The walk from a level down: the leaf, its level, and the entries read; or a fault code (R181, R183). -/
def State.walk (s : State) (plot tenant va : Nat) : Nat → Nat → Except Nat (Word × Nat × List (Nat × Word))
  | fuel, table =>
    match fuel with
    | 0 => .error 7
    | level + 1 =>
      let r := s.walkEntry plot tenant level table va
      if !pteV r.1 then .error 7
      else if !r.2 || !s.pteOk level r.1 then .error 8
      else if pteLeaf r.1 then .ok (r.1, level, [(level, r.1)])
      else
        match s.walk plot tenant va level (pteFrame r.1) with
        | .error c => .error c
        | .ok (e, l, es) => .ok (e, l, (level, r.1) :: es)

/-- The kinds of access that the checks of R184 tell apart. -/
inductive Acc where
  | read | write | fetch
deriving DecidableEq, Repr

/-- Whether bytes exist at a local address: HBM4E, a scratchpad outside its hole, or a pinned slice page; the unpinned
slice pages are not addressable (R171, R172). -/
def State.addressable (s : State) (a : Nat) : Bool :=
  match rangeOf a with
  | .hbm | .scratch _ => true
  | .slice _ => s.pinned a
  | _ => false

/-- HOME against the frame of a whole page (R172, R178): a scratchpad page lies outside the holes, a pinned one in one slice
page. A page of this package's own remote range is served locally, so what it reaches must exist here (DEDUCED, log entry
51). -/
def State.homeOk (s : State) (level : Nat) (e : Word) (pa : Nat) : Bool :=
  let mem := pteHome e == 0 || pteHome e == 3
  match rangeOf (pteFrame e) with
  | .hbm => mem
  | .tier2 => mem && !pteFe e
  | .remote p _ => mem && (s.fab.pkg != some p || s.addressable (s.localAddr pa))
  | .scratch _ => pteHome e == 1 && leafBits level e ≤ 16 && rangeOf (pteFrame e + 2 ^ leafBits level e - 1) != .hole
  | .slice _ => pteHome e == 2 && leafBits level e ≤ 16 && s.pinned (pteFrame e)
  | _ => false

/-- Who makes an access: the plot whose translation cache serves it, its tenant and PL, its cache hint (R59), and whether
the tenant check is made (R176). -/
structure Who where
  plot : Nat
  tenant : Nat
  pl : Nat
  hint : Nat := 0
  checkTenant : Bool := true
deriving DecidableEq, Repr

/-- The first address of the context region (R181). -/
def contextRegion : Nat := 0xFFFF0000000000

/-- Steps 4 to 7 of R184 for a leaf: the fault code of the first that fails. -/
def State.permit (s : State) (w : Who) (k : Acc) (level : Nat) (e : Word) (pa : Nat) : Option Nat :=
  if pteSup e && w.pl == 0 then some 9
  else if w.checkTenant && pteTenant e != w.tenant && pteTenant e != 63 && w.pl < 2 then some 10
  else if k == .write && pteRo e then some (if pteCow e then 11 else 9)
  else if !s.homeOk level e pa then some 12
  else none

/-- Steps 1 to 7 of R184 for one address: the physical address and the leaf with the entries read, or a fault
code. A sheaf window is no memory of its own (R187). -/
def State.check (s : State) (w : Who) (k : Acc) (va : Nat) : Except Nat (Nat × Word × List (Nat × Word)) :=
  if contextRegion ≤ va && va < contextRegion + 16 * 2 ^ 32 then .error 14
  else if 2 ^ 56 ≤ va || contextRegion ≤ va then .error 7
  else if s.root w.tenant = 0 then .error 7
  else if !s.rootOk (s.root w.tenant) then .error 8
  else
    match s.walk w.plot w.tenant va 4 (s.root w.tenant) with
    | .error c => .error c
    | .ok (e, level, es) =>
      let pa := pteFrame e + va % 2 ^ leafBits level e
      match s.permit w k level e pa with
      | some c => .error c
      | none => .ok (pa, e, es)


/-! ## Slice caches (R179, R180) -/

/-- The hint of a syllable against RES: the class of an allocation, 3 for none (R180). -/
def allocClass (ch : Nat) (pte : Word) : Nat :=
  if pteHome pte = 1 || pteHome pte = 2 || pteHome pte = 3 || ch = 3 || ch = 1 then 3
  else if ch = 2 then 0 else pteRes pte

/-- A die. -/
def State.die (s : State) (d : Nat) : Die := Tab.getD s.dies d Die.zero

/-- A die written. -/
def State.setDie (s : State) (d : Nat) (x : Die) : State := { s with dies := Tab.set s.dies d x }

/-- One more in a die counter (R300). -/
def State.bumpDie (s : State) (d n : Nat) (by_ : Nat := 1) : State :=
  let x := s.die d
  s.setDie d { x with counters := x.counters.setIfInBounds n (x.counters.getD n 0 + BitVec.ofNat 64 by_) }

/-- One more in a plot counter (R300). -/
def State.bumpPlot (s : State) (p n : Nat) (by_ : Nat := 1) : State :=
  let x := s.plot p
  s.setPlot p { x with counters := x.counters.setIfInBounds n (x.counters.getD n 0 + BitVec.ofNat 64 by_) }

/-- The last of a class among lines, least recently used last. -/
def lruOf (ls : List CacheLine) (cls : Nat) : Option CacheLine := (ls.filter (·.cls == cls)).getLast?

/-- An access to a line looks it up in its slice, and allocates it there as its policy says (R179, R180). A resident access of a
tenant whose mask is empty, or of a slice that is pinned whole, which never allocates, counts as no overflow (DESIGN CHOICE, log
entry 54). -/
def State.touchLine (s : State) (line : Nat) (pol : Policy) : State :=
  let pa := line * 64
  match rangeOf pa with
  | .hbm | .tier2 =>
    let n := s.cacheSlice pa
    let pins := s.pins n
    let ls := Tab.getD s.slices n []
    match ls.find? (·.line == line) with
    | some l => { s with slices := Tab.set s.slices n (l :: ls.filter (·.line != line)) }
    | none =>
      if pol.cls = 3 || pins = BitVec.allOnes 32 then s
      else
        let mask := s.partition (s.homeDie pa) (pol.tenant % 64)
        if mask = 0 then s
        else
          let set := ls.filter (fun l => Config.sliceSet pins l.line == Config.sliceSet pins line)
          let ways := set.filter (fun l => mask.getLsbD l.way)
          let free := (List.range 16).find? (fun w => mask.getLsbD w && !set.any (·.way == w))
          let excess := pol.cls = 2 && 2 ≤ (set.filter (·.cls == 2)).length
          let victim := match lruOf ways 2 with
            | some l => some l
            | none => if excess then none else lruOf ways 1
          let fill (w : Nat) (rest : List CacheLine) : State :=
            { s with slices := Tab.set s.slices n ((⟨line, w, pol.cls⟩ : CacheLine) :: rest) }
          match (if excess then none else free), victim with
          | some w, _ => fill w ls
          | none, some l => fill l.way (ls.filter (·.line != l.line))
          | none, none => if pol.cls = 0 then s.bumpDie (s.homeDie pa) 0 else s
  | _ => s

/-- Whether a slice holds a line (R179). -/
def State.present (s : State) (line : Nat) : Bool :=
  (Tab.getD s.slices (s.cacheSlice (line * 64)) []).any (fun l => l.line == line)

/-- The lines of a piece. -/
def pieceLines (p : Piece) : List Nat :=
  (List.range ((p.pa % 64 + p.len + 63) / 64)).map (fun i => p.pa / 64 + i)

/-- The lines of a checked access looked up and allocated, each as its own page and the hint say. -/
def State.touch (s : State) (pieces : List Piece) : State :=
  pieces.foldl (fun s p => (pieceLines p).foldl (fun s l => s.touchLine l p.pol) s) s

/-- The lines that a walk reads for its entries, from the table at an address down: of a 64 KiB page the indexed entry and
the first of its group (R183). -/
def walkLines (va : Nat) : Nat → List (Nat × Word) → List (Nat × Nat)
  | _, [] => []
  | table, (level, e) :: es =>
    let a := table + 8 * vaIndex level va
    let l := (level, a / 64)
    (if level = 0 && ptePs64 e then [l, (level, (table + 8 * (vaIndex 0 va / 16 * 16)) / 64)] else [l]) ++
      walkLines va (pteFrame e) es

/-- The entries of a walk put into a plot's translation cache, with the miss counted (R186, R300). What is not cached is
read through the home slice as evictable lines, in the partition of the tenant whose walk it is (R186; DESIGN CHOICE, log
entry 8). -/
def State.cacheWalk (s : State) (w : Who) (va : Nat) (es : List (Nat × Word)) : State :=
  let p := s.plot w.plot
  let new := es.filter (fun e => !p.tc.any (fun t => t.hits w.tenant e.1 va))
  let p' := { p with
    tc := (new.map (fun e => (⟨w.tenant, e.1, tcIndex e.1 va, e.2⟩ : TcEntry)) ++ p.tc).take 4096
    counters := if new.isEmpty then p.counters else p.counters.set 4 (p.counters[4] + 1) }
  let ls := (walkLines va (s.root w.tenant) es).filter (fun l => new.any (fun e => e.1 == l.1))
  ls.foldl (fun s l => s.touchLine l.2 ⟨1, w.tenant⟩) (s.setPlot w.plot p')

/-- An access cut at 4 KiB boundaries: virtual address and bytes of each part. -/
def splitAt4k : Nat → Nat → Nat → List (Nat × Nat)
  | 0, _, _ => []
  | fuel + 1, va, len =>
    if len = 0 then []
    else
      let n := min len (4096 - va % 4096)
      (va, n) :: splitAt4k fuel ((va + n) % 2 ^ 64) (len - n)

/-- The parts of an access by pages. -/
def pageParts (va len : Nat) : List (Nat × Nat) := splitAt4k (len / 4096 + 2) va len

/-- A checked access: its pieces and the walks made (R184, R190). -/
structure Checked where
  pieces : List Piece
  walks : List (Nat × List (Nat × Word))
deriving DecidableEq, Repr

/-- The policy of what allocates in no slice. -/
def noAlloc : Policy := ⟨3, 0⟩

/-- The slice policy of an access to a page with a hint (R180). -/
def policyOf (hint : Nat) (pte : Word) : Policy := ⟨allocClass hint pte, pteTenant pte⟩

/-- The check of R184 for every page that an access touches, or the first failing address with its code (R190). -/
def State.checkParts (s : State) (w : Who) (k : Acc) : List (Nat × Nat) → Except (Nat × Nat) Checked
  | [] => .ok ⟨[], []⟩
  | (va, n) :: rest =>
    match s.check w k va with
    | .error c => .error (c, va)
    | .ok (pa, e, es) =>
      match s.checkParts w k rest with
      | .error c => .error c
      | .ok c => .ok ⟨⟨s.localAddr pa, n, pteFe e, policyOf w.hint e⟩ :: c.pieces, (va, es) :: c.walks⟩

/-- The check of an access of `len` bytes at a virtual address outside the context region. -/
def State.checkAccess (s : State) (w : Who) (k : Acc) (va len : Nat) : Except (Nat × Nat) Checked :=
  s.checkParts w k (pageParts va len)

/-- The walks of a checked access put into the plot's translation cache. -/
def State.cacheWalks (s : State) (w : Who) (c : Checked) : State :=
  c.walks.foldl (fun s x => s.cacheWalk w x.1 x.2) s

/-! ## Reading and writing pieces -/

/-- The bytes of the image in a plane. -/
def Plane.read (p : Plane) : Nat → Nat → List Byte
  | _, 0 => []
  | off, n + 1 => Tab.getD p.bytes off 0 :: p.read (off + 1) n

/-- A doubleword of a plane's image. -/
def Plane.word (p : Plane) (off : Nat) : Word := BitVec.ofNat 64 (leNat (p.read off 8))

/-- The bytes of one piece: memory at home, `ext` for another package, zero past the overflow pointer (R176), the
active plane for the constant range (R256). -/
def State.readPiece (s : State) (ext : List Host.Cell) (p : Piece) : List Byte :=
  if 2 ^ 53 ≤ p.pa then
    (s.plot ((p.pa - 2 ^ 53) / 2 ^ 20)).active.read (0x44000 + (p.pa - 2 ^ 53) % 2 ^ 20) p.len
  else if 2 ^ 52 ≤ p.pa then List.replicate p.len 0
  else if s.isRemote p.pa then Memory.read ext p.pa p.len
  else s.bytes p.pa p.len

/-- The bytes of pieces; bytes of other packages come from `ext` (engine reads). -/
def State.readPieces (s : State) (ext : List Host.Cell) (ps : List Piece) : List Byte := ps.flatMap (s.readPiece ext)

/-- Whether an access to a piece crosses a SerDes group: it lies on another package, or in second-tier memory and not whole
in its slice, or outside every published window, whatever a slice holds (R172, R179). -/
def State.far (s : State) (p : Piece) : Bool :=
  p.pa < 2 ^ 52 && (s.isRemote p.pa ||
    (s.needsFabric p.pa && !((s.publishedWindow p.pa).isSome && (pieceLines p).all s.present)))

/-! ## Paths behind the fabric (R342, R346, R348, R351) -/

/-- A SerDes group. -/
def State.group (s : State) (g : Nat) : Group := Tab.getD s.fab.groups g Group.zero

/-- A group written. -/
def State.setGroup (s : State) (g : Nat) (x : Group) : State :=
  { s with fab := { s.fab with groups := Tab.set s.fab.groups g x } }

/-- Whether a group is one of UALink, the even one of a bonded pair (R339). -/
def Group.ualink (x : Group) : Bool := x.preset == 2 || x.preset == 3

/-- Whether a window that the group's running operation withdraws, or has withdrawn, covers an address (R347, R348). -/
def Group.withdrew (x : Group) (pa : Nat) : Bool := x.withdrawn.any (fun e => entryCovers e.2 pa)

/-- The path set to a package as the states of the groups give it (R351). -/
def State.pathSet (s : State) (pkg : Nat) : List Nat :=
  (List.range 32).filter (fun g =>
    let x := s.group g
    x.ualink && (x.st == .up || x.op == some false) && (Tab.getD s.fab.routes pkg []).contains g &&
      !s.fab.peerOut.contains (pkg, g))

/-- The path index hash of a local address (R351). -/
def pathHash (a : Nat) : Nat :=
  bitsOf a 6 8 ^^^ bitsOf a 14 8 ^^^ bitsOf a 22 8 ^^^ bitsOf a 30 8 ^^^ bitsOf a 38 3

/-- Whether the retry buffer of a group is full (R350). -/
def State.fullRetry (s : State) (g : Nat) : Bool := 256 ≤ (s.group g).retry.length

/-- Whether a group holds what reaches its admission point: it is not UP, or its retry buffer is full (R346, R350). -/
def State.stalled (s : State) (g : Nat) : Bool := (s.group g).st != .up || s.fullRetry g

/-- Whether the link of a group carries what is under way on it (R346). -/
def Group.carries (x : Group) : Bool := x.st == .up || x.st == .quiesce || x.st == .drain

/-- The member of a path set that an address takes (R351). -/
def pathIn (ps : List Nat) (a : Nat) : Option Nat := ps[pathHash a % ps.length]?

/-- The group that an access behind the fabric takes and whether it is held at the admission point, or the cause of its
fault record (R342, R346, R348, R351, R354). While a changed set waits to take effect, requests are held; on the new set, or
where that is empty still on the old one. -/
def State.pathTo (s : State) (pa : Nat) : Except Nat (Nat × Bool) :=
  match rangeOf (s.localAddr pa) with
  | .remote pkg a =>
    match pathIn (s.pathSet pkg) a, (Tab.get? s.fab.paths pkg) with
    | some g, none => .ok (g, s.stalled g)
    | some g, some _ => .ok (g, true)
    | none, old =>
      match pathIn (old.getD []) a with
      | none => .error 4
      | some g => .ok (g, true)
  | _ =>
    match s.publishedWindow pa with
    | none =>
      match (List.range 32).find? (fun g => (s.group g).withdrew pa) with
      | none => .error 3
      | some g => if (s.group g).st == .withdraw then .ok (g, true) else .error 2
    | some n =>
      let g := bitsOf (s.windowEntry n).1.toNat 56 5
      .ok (g, s.stalled g)

/-- A packet sent on a group: a flit enters the retry buffer (R350). The packets of this model are of one flit. -/
def State.sendFlit (s : State) (g : Nat) : State :=
  let x := s.group g
  s.setGroup g { x with txSeq := x.txSeq + 1, retry := x.retry ++ [x.txSeq], wire := x.wire ++ [x.txSeq] }

/-- A notice sent on a group's priority lane, which has buffers of its own (R353). -/
def State.sendLane (s : State) (g : Nat) : State :=
  let x := s.group g
  s.setGroup g { x with txSeq := x.txSeq + 1, lane := x.lane ++ [x.txSeq], wire := x.wire ++ [x.txSeq] }

/-! ## Writing pieces -/

/-- Whether every line of the pieces on this package's sync pages is full (R185). -/
def State.piecesFull (s : State) (ps : List Piece) : Bool :=
  ps.all (fun p => !p.fe || s.isRemote p.pa || (pieceLines p).all (fun l => !s.empties.contains l))

/-- The sync lines of pieces set full; another package fills its own, with the data (R185, R218). -/
def State.fillPieces (s : State) (ps : List Piece) : State :=
  (ps.filter (fun p => p.fe && !s.isRemote p.pa)).foldl (fun s p => (pieceLines p).foldl (fun s l => s.setFull (l * 64)) s) s

/-- Whether every published window covers the second-tier bytes of pieces (R172). -/
def State.tier2Served (s : State) (ps : List Piece) : Bool :=
  ps.all (fun p => rangeOf p.pa != .tier2 || (s.publishedWindow p.pa).isSome)

end Sys2Proof.Machine
end

