-- ==== Sys2Proof/Machine/Flags.lean ====
section
/-! DEFINITION. Bit fields of control words, the task status word (R84), guards (R57), budgets and their exhaustion
(R287 to R290). -/

namespace Sys2Proof.Machine

/-! ## Bit fields -/

/-- Field of `n` bits from bit `lo`. -/
def getBits (w : Word) (lo n : Nat) : Nat := bitsOf w.toNat lo n

/-- A word with the field of `n` bits from bit `lo` written. -/
def putBits (w : Word) (lo n v : Nat) : Word :=
  (w &&& ~~~(BitVec.ofNat 64 ((2 ^ n - 1) * 2 ^ lo))) ||| BitVec.ofNat 64 (v % 2 ^ n * 2 ^ lo)

/-- A word with one bit written. -/
def putBit (w : Word) (i : Nat) (b : Bool) : Word := putBits w i 1 b.toNat

/-- A word of a flag. -/
def flag (b : Bool) : Word := if b then 1 else 0

/-! ## TSW (R84) -/

/-- FCODE of a TSW. -/
def tswFcode (w : Word) : Nat := getBits w 11 5
/-- SHV of a TSW. -/
def tswShv (w : Word) : Bool := w.getLsbD 10
/-- PREQ of a TSW. -/
def tswPreq (w : Word) : Bool := w.getLsbD 9
/-- MEXH of a TSW. -/
def tswMexh (w : Word) : Bool := w.getLsbD 8
/-- BEXH of a TSW. -/
def tswBexh (w : Word) : Bool := w.getLsbD 7
/-- YPEND of a TSW. -/
def tswYpend (w : Word) : Bool := w.getLsbD 6
/-- PL of a TSW. -/
def tswPl (w : Word) : Nat := getBits w 4 2
/-- SRES of a TSW. -/
def tswSres (w : Word) : Nat := getBits w 0 4

/-- The privilege level of a task. -/
def Task.pl (t : Task) : Nat := tswPl t.csr.tsw

/-- A task with its TSW changed. -/
def Task.onTsw (t : Task) (f : Word → Word) : Task := { t with csr := { t.csr with tsw := f t.csr.tsw } }

/-- A pre-emption request sets PREQ, and YPEND with it (R84). -/
def Task.preempt (t : Task) : Task := t.onTsw (fun w => putBit (putBit w 9 true) 6 true)

/-! ## Predicates and guards (R57) -/

/-- A predicate; p0 reads true (R62, R101). -/
def Regs.getP (r : Regs) (n : Nat) : Bool := n == 0 || r.p.getLsbD n

/-- Whether the guard of a syllable is true. -/
def Regs.guard (r : Regs) (x : Syl) : Bool :=
  (r.getP x.ga.toNat ^^ x.na) && (r.getP x.gb.toNat ^^ x.nb)

/-! ## Budgets -/

/-- The largest budget. -/
def maxUnits : Nat := 2 ^ 48 - 1

/-- A word with a bit set where a condition holds. -/
def raise (b : Bool) (i : Nat) (w : Word) : Word := if b then putBit w i true else w

/-- A charge of BI and BM units against the budgets, with exhaustion (R289). -/
def Csrs.charge (c : Csrs) (bi bm : Nat) : Csrs :=
  let ui := getBits c.bi 0 48 - bi
  let um := getBits c.bm 0 48 - bm
  let ei := 0 < bi && ui == 0
  let em := 0 < bm && um == 0
  { c with
    bi := BitVec.ofNat 64 ui
    bm := BitVec.ofNat 64 um
    tsw := raise em 8 (raise ei 7 (raise (ei || em) 6 c.tsw)) }

/-- A task counter raised (R301). -/
def Job.bump (j : Job) (n by_ : Nat) : Job :=
  { j with counters := j.counters.setIfInBounds n (j.counters.getD n 0 + BitVec.ofNat 64 by_) }

/-- The dues of a task with a charge of the present cycle, made to the given control registers (R306). -/
def Dues.add (d : Dues) (now : Nat) (c : Csrs) (bi bm : Nat) : Dues :=
  let e : Dues := if d.at_ = now + 1 then d else ⟨now + 1, 0, 0, 0⟩
  ⟨now + 1, e.bi + (bi - getBits c.bi 0 48), e.bm + (bm - getBits c.bm 0 48), e.bits ||| ((c.charge bi bm).tsw &&& ~~~c.tsw)⟩

/-- A charge counted for a task: the task counters 3 and 4 (R301), and the dues of the cycle. -/
def Job.charged (j : Job) (now : Nat) (c : Csrs) (bi bm : Nat) : Job :=
  { (j.bump 3 bi).bump 4 bm with dues := j.dues.add now c bi bm }

/-- A charge made to a task in cycle `now`: its budgets, and what counts it (R289, R301). -/
def Task.charge (t : Task) (now bi bm : Nat) : Task :=
  { t with
    csr := t.csr.charge bi bm
    job := t.job.charged now t.csr bi bm }

/-- Addition to a budget, saturating (R286). -/
def addUnits (w : Word) (n : Nat) : Word := BitVec.ofNat 64 (min maxUnits (getBits w 0 48 + n))

/-- YPCNT counts held cycles, saturating (R28, R85). -/
def Task.count (t : Task) (cycles : Nat) : Task :=
  { t with
    csr := { t.csr with ypcnt := BitVec.ofNat 64 (min (2 ^ 32 - 1) (getBits t.csr.ypcnt 0 32 + cycles)) }
    job := t.job.bump 1 cycles }

/-! ## Charges (R287, R290) -/

/-- The parts of a charge. -/
structure Cost where
  fixed : Nat
  var : Nat
  min_ : Nat
  goff : Nat
  shift : Nat
deriving DecidableEq, Repr

/-- The number of a class in the charge-override table. -/
def Cls.num : Cls → Nat
  | .A => 0 | .S => 1 | .V => 2 | .M => 3 | .C => 4

/-- The override entry of an opcode in a plane: the entries whose V bit the image sets are looked at. -/
def Plane.override (p : Plane) (c : Cls) (opc : Nat) : Option Word :=
  let vs := p.bytes.filter (fun b => 0x800 ≤ b.1 && b.1 < 0x1000 && b.1 % 8 == 7 && b.2.getLsbD 7)
  (vs.map (fun b => p.word (b.1 - 7))).find? (fun e => getBits e 60 3 == Cls.num c && getBits e 50 10 == opc)

/-- The charge of a form with its override. -/
def Plane.cost (p : Plane) (c : Cls) (opc : Nat) (d : Cost) : Cost :=
  match (if p.valid then p.override c opc else none) with
  | none => d
  | some e => ⟨getBits e 16 16, d.var, getBits e 0 8, getBits e 32 10, getBits e 12 4⟩

/-- The BI units of an executing form. -/
def Cost.units (c : Cost) : Nat := max c.min_ (c.fixed + c.var * 2 ^ c.shift)

/-- The default charge of a form that R287 does not list. -/
def Cost.plain : Cost := ⟨1, 0, 0, 1, 0⟩

end Sys2Proof.Machine
end

