-- ==== Sys2Proof/Machine/Ops.lean ====
section
/-! DEFINITION. The named operations over tasks, registers, queues, slots and groups: landings (R81, R331), fills
(R79), address resolution (R176, R187), group and grid completion (R15), aborts (R337), taking an exception (R329)
and the return from it (R333). -/

namespace Sys2Proof.Machine

/-! ## Tasks -/

/-- The task of an identity. -/
def State.task? (s : State) (uid : Nat) : Option Task := Tab.get? s.tasks uid

/-- A task written. -/
def State.setTask (s : State) (uid : Nat) (t : Task) : State := { s with tasks := Tab.set s.tasks uid t }

/-- A task changed, if it exists. -/
def State.onTask (s : State) (uid : Nat) (f : Task → Task) : State :=
  match s.task? uid with
  | none => s
  | some t => s.setTask uid (f t)

/-- The task on the stage. -/
def State.cur (s : State) : Task := (s.task? s.stage.uid).getD Task.zero

/-- The task on the stage changed. -/
def State.onCur (s : State) (f : Task → Task) : State := s.onTask s.stage.uid f

/-- The context number that a task occupies, or left (R8, R27). -/
def Task.no (t : Task) : Nat := t.ctx.getD t.job.left
/-- The tiller of a task (R8). -/
def Task.tiller (t : Task) : Nat := t.no / 8
/-- The plot of a task (R8). -/
def Task.plot (t : Task) : Nat := t.no / 32
/-- The die of a task (R8). -/
def Task.die (t : Task) : Nat := t.no / 1024
/-- The tenant of a task (R85). -/
def Task.tenant (t : Task) : Nat := getBits t.csr.tenant 0 6
/-- The maker of a task's accesses with a cache hint. -/
def Task.who (t : Task) (hint : Nat := 0) : Who := { plot := t.plot, tenant := t.tenant, pl := t.pl, hint := hint }

/-- The tasks with their identities on a plot's contexts. -/
def State.onPlot (s : State) (p : Nat) : List (Nat × Task) :=
  s.tasks.filter (fun e => match e.2.ctx with | some c => c / 32 == p | none => false)

/-- The task of a context. -/
def State.atCtx (s : State) (c : Nat) : Option (Nat × Task) := s.tasks.find? (fun e => e.2.ctx == some c)

/-- The members of the gang of a task (R11). -/
def State.gang (s : State) (t : Task) : List (Nat × Task) :=
  s.tasks.filter (fun e => e.2.job.slot == t.job.slot && e.2.job.group == t.job.group && e.2.job.grid == t.job.grid)

/-- The next identity. -/
def State.mint (s : State) : State := { s with fresh := s.fresh + 1 }

/-- A tiller. -/
def State.tiller (s : State) (n : Nat) : Tiller := Tab.getD s.tillers n Tiller.zero

/-- A tiller written. -/
def State.setTiller (s : State) (n : Nat) (x : Tiller) : State := { s with tillers := Tab.set s.tillers n x }

/-- A report posted to the management core. -/
def State.report (s : State) (r : Report) : State := { s with reports := s.reports ++ [r] }

/-! ## Registers -/

/-- A 64-bit result in a register's width. -/
def vec (w : Word) : Vec := w.setWidth 1024

/-- The low word of a register. -/
def low (v : Vec) : Word := v.setWidth 64

/-- An `s` register (R63, R78): s0 reads 0. -/
def Regs.getS (r : Regs) (n : Nat) : Word := if n = 0 then 0 else r.s.getD n 0

/-- A `v` register. -/
def Regs.getV (r : Regs) (n : Nat) : Vec := r.v.getD n 0

/-- The tag of a `v` register. -/
def Regs.getVt (r : Regs) (n : Nat) : Tag := r.vt.getD n 0

/-- A lane mask; k0 reads all ones (R62, R118). -/
def Regs.getK (r : Regs) (n : Nat) : Mask := if n = 0 then BitVec.allOnes 128 else r.k.getD n 0

/-- Whether a register numbered as in R63 is full; s0 and the ports always are. -/
def Regs.fullReg (r : Regs) (n : Nat) : Bool :=
  if n = 0 then true
  else if n < 64 then r.fes.getLsbD n
  else r.fev.getLsbD (n - 64)

/-- An `s` register written; s0 discards (R62, R78). -/
def Regs.setS (r : Regs) (n : Nat) (w : Word) : Regs := if n = 0 then r else { r with s := r.s.setIfInBounds n w }

/-- A `v` register written with its tag. -/
def Regs.setV (r : Regs) (n : Nat) (v : Vec) (t : Tag) : Regs :=
  { r with v := r.v.setIfInBounds n v, vt := r.vt.setIfInBounds n t }

/-- A predicate written; p0 discards. -/
def Regs.setP (r : Regs) (n : Nat) (b : Bool) : Regs :=
  if n = 0 then r
  else { r with p := if b then r.p ||| BitVec.ofNat 8 (2 ^ n) else r.p &&& ~~~(BitVec.ofNat 8 (2 ^ n)) }

/-- A lane mask written; k0 discards. -/
def Regs.setK (r : Regs) (n : Nat) (m : Mask) : Regs := if n = 0 then r else { r with k := r.k.setIfInBounds n m }

/-- The full/empty bit of a register set; s0 is always full. -/
def Regs.mark (r : Regs) (n : Nat) (full : Bool) : Regs :=
  if n = 0 then r
  else if n < 64 then
    { r with fes := if full then r.fes ||| BitVec.ofNat 64 (2 ^ n) else r.fes &&& ~~~(BitVec.ofNat 64 (2 ^ n)) }
  else
    { r with fev := if full then r.fev ||| BitVec.ofNat 64 (2 ^ (n - 64))
                    else r.fev &&& ~~~(BitVec.ofNat 64 (2 ^ (n - 64))) }

/-! ## Landings -/

/-- Store data landing in its entry (R64). -/
def Queues.landData (q : Queues) (id : Nat) (v : Vec) : Queues :=
  { q with sdata := q.sdata.map (fun e => if e.id = id then { e with data := some v } else e) }

/-- An element of an output stream landing in its buffer (R228). -/
def Queues.landElem (q : Queues) (i id : Nat) (v : Vec) : Queues :=
  match Tab.get? q.streams i with
  | none => q
  | some st =>
    let st' : Stream := { st with buf := st.buf.map (fun e => if e.id = id then { e with data := some v } else e) }
    { q with streams := Tab.set q.streams i st' }

/-- A result lands. A register that a producer has left empty keeps its emptiness: the result is older than the
producer and is discarded (R91). So is one that a later slot of the producer's own bundle started, where the spec gives
no order (DESIGN CHOICE, log entry 48). -/
def Task.land (t : Task) (l : Landing) : Task :=
  match l.dest with
  | .s n => if t.regs.fullReg n then { t with regs := t.regs.setS n (low l.data) } else t
  | .v n => if t.regs.fullReg (n + 64) then { t with regs := t.regs.setV n l.data l.tag } else t
  | .p n => { t with regs := t.regs.setP n (l.data.getLsbD 0) }
  | .k n => { t with regs := t.regs.setK n (l.data.setWidth 128) }
  | .store id => { t with q := t.q.landData id l.data }
  | .stream q id => { t with q := t.q.landElem q id l.data }
  | .none => t

/-- A landing put among others by its cycle, behind those of the same cycle (R81). -/
def insertLanding (l : Landing) : List Landing → List Landing
  | [] => [l]
  | m :: ms => if l.due < m.due then l :: m :: ms else m :: insertLanding l ms

/-- Landings in the order of their cycles. -/
def sortLandings (ls : List Landing) : List Landing := ls.foldl (fun acc l => insertLanding l acc) []

/-- The latches that count from the restart, with their landing cycles (R331). -/
def Flow.armed (f : Flow) : List Landing :=
  match f.latchStart with
  | none => []
  | some c => f.latches.map (fun l => { l with due := c + l.due })

/-- Every result whose cycle has come lands; SHV clears with the last latch (R331). -/
def Task.landDue (t : Task) (now : Nat) : Task :=
  let a := t.flow.armed
  let ready := sortLandings ((a ++ t.flow.inflight).filter (fun l => l.due ≤ now))
  let left := match t.flow.latchStart with
    | none => t.flow.latches
    | some c => t.flow.latches.filter (fun l => now < c + l.due)
  let t1 := ready.foldl Task.land t
  { t1 with
    flow := { t1.flow with
      inflight := t1.flow.inflight.filter (fun l => now < l.due)
      latches := left
      latchStart := if left.isEmpty then none else t1.flow.latchStart }
    csr := { t1.csr with tsw := putBit t1.csr.tsw 10 (!left.isEmpty) } }

/-- Whether a landing feeds a store-data entry whose address is queued: the n-th address pairs with the n-th
entry (R196). -/
def Queues.pairedData (q : Queues) : List Nat :=
  (q.sdata.take (q.stores.filter (fun e => match e with | .sta .. => true | _ => false)).length).map (·.id)

/-- Issue stops: results in flight enter the latches with the cycles they have left (R331). Data of a paired store
goes on to its entry, which trap entry waits for (R329). -/
def Task.freeze (t : Task) (now : Nat) : Task :=
  let keep := fun (l : Landing) => match l.dest with
    | .store id => t.q.pairedData.contains id
    | _ => false
  let old := match t.flow.latchStart with
    | none => t.flow.latches
    | some c => t.flow.latches.map (fun l => { l with due := c + l.due - now })
  let new := (t.flow.inflight.filter (fun l => !keep l)).map (fun l => { l with due := l.due - now })
  let ls := old ++ new
  { t with
    flow := { t.flow with inflight := t.flow.inflight.filter keep, latches := ls, latchStart := none }
    csr := { t.csr with tsw := putBit t.csr.tsw 10 (!ls.isEmpty) } }

/-- The first issue after a stop starts the offsets of the latches (R331). -/
def Task.arm (t : Task) (now : Nat) : Task :=
  if t.flow.latches.isEmpty || t.flow.latchStart.isSome then t
  else { t with flow := { t.flow with latchStart := some now } }

/-! ## Producers (R79) -/

/-- The number by which a producer names the store-data queue where another would name a stream (R63). -/
def storeDataQueue : Nat := 8

/-- A producer marks its register empty; s0 takes none (R93). Two dividers of one bundle may share a register, which each
fills as it lands (R95; DEDUCED, log entry 48). -/
def Task.produce (t : Task) (p : Producer) : Task :=
  if p.reg = 0 then t
  else if p.elem.isSome then { t with flow := { t.flow with producers := t.flow.producers ++ [p] } }
  else { t with
    regs := t.regs.mark p.reg false
    flow := { t.flow with producers := t.flow.producers ++ [p] } }

/-- What a producer delivers to a queue: an element of an output stream, or a store-data entry, which a trap entry may
have moved to the frame (R63, R329). -/
def Task.fillElem (t : Task) (q e : Nat) (v : Vec) : Task :=
  if q = storeDataQueue then
    let f := t.flow.frame
    let g : Frame := { f with sdata := f.sdata.map (fun x => if x.id = e then { x with data := some v } else x) }
    { t with q := t.q.landData e v, flow := { t.flow with frame := g } }
  else { t with q := t.q.landElem q e v }

/-- The fill of a producer: its register is written and set full. -/
def Task.fill (t : Task) (id : Nat) (v : Vec) (tag : Tag) : Task :=
  match t.flow.producers.find? (fun p => p.id == id) with
  | none => t
  | some p =>
    let rest := t.flow.producers.filter (fun x => x.id != id)
    match p.elem with
    | some (q, e) => ({ t with flow := { t.flow with producers := rest } } : Task).fillElem q e v
    | none =>
    let r := if p.reg < 64 then t.regs.setS p.reg (low v) else t.regs.setV (p.reg - 64) v tag
    let fr := if t.flow.inHandler && p.id < t.flow.frame.since && 48 ≤ p.reg && p.reg ≤ 53 then
        { t.flow.frame with s := t.flow.frame.s.setIfInBounds (p.reg - 48) (low v) }
      else t.flow.frame
    { t with
      regs := r.mark p.reg true
      flow := { t.flow with producers := rest, frame := fr } }

/-- CHECK of a save image (R335): CRC-32C over its control part but the s and v registers. -/
def State.imageCheck (s : State) (a : Nat) : BitVec 32 := crc32c (s.bytes (a + 0x150) 0x1730 ++ s.bytes (a + 0x3A80) 0x2480)

/-- An image with its CHECK written. -/
def State.sealImage (s : State) (a : Nat) : State := s.store (a + 0x5F00) (toLe 4 (s.imageCheck a).toNat)

/-- A bit of a word in memory set. -/
def State.setWordBit (s : State) (a i : Nat) : State := s.store a (toLe 8 (s.word a ||| BitVec.ofNat 64 (2 ^ i)).toNat)

/-- The fill of a producer in a saved image: the register is written, it is marked full, and its record is done (R89,
R407); `n` is the place of the record. -/
def State.fillImage (s : State) (a reg n : Nat) (v : Vec) (tag : Tag) : State :=
  let s1 := if reg < 64 then (s.store (a + 0x1880 + 8 * reg) (toLe 8 (low v).toNat)).setWordBit (a + 0x178) reg
    else ((s.store (a + 0x1A80 + 128 * (reg - 64)) (toLe 128 v.toNat)).store (a + 0x1C0 + (reg - 64)) (toLe 1 tag.toNat)).setWordBit
      (a + 0x180) (reg - 64)
  (s1.setWordBit (a + 0x1680 + 16 * n) 59).sealImage a

/-- The record of a producer in the saved image of its task: records are in issue order, and DONE ones stay (R407). -/
def State.recordOf (s : State) (a reg : Nat) : Nat :=
  ((List.range 32).find? (fun n =>
    let w := s.word (a + 0x1680 + 16 * n)
    w.getLsbD 63 && !w.getLsbD 59 && getBits w 0 7 == reg)).getD 32

/-- A fill that arrives for a task, resident or saved (R79, R89). -/
def State.fillTask (s : State) (uid id : Nat) (v : Vec) (tag : Tag) : State :=
  match s.task? uid with
  | none => s
  | some t =>
    if t.phase = .yielded then
      match t.flow.producers.find? (fun p => p.id == id && p.elem.isNone) with
      | none => s.setTask uid (t.fill id v tag)
      | some p =>
        let a := t.job.savedAt
        (s.fillImage a p.reg (s.recordOf a p.reg) v tag).setTask uid (t.fill id v tag)
    else s.setTask uid (t.fill id v tag)

/-- A failure found after issue, kept until the next bundle (R190). -/
def Task.late (t : Task) (va : Word) : Task := { t with flow := { t.flow with lates := t.flow.lates ++ [va] } }

/-! ## Where an access goes -/

/-- Why a syllable does not take effect: a fault with the address it names, or a block. -/
inductive Stop where
  | fault (code : Nat) (va : Option Word)
  /-- a fault found `k` cycles behind the slot's issue (R110) -/
  | after (k code : Nat) (va : Option Word)
  /-- the same for a fetch that a fault record has ended: the physical address and the cause (R110, R354) -/
  | lost (k : Nat) (va : Word) (pa cause : Nat)
  | block (why : Awaits)
  | stall
  | suspend
  /-- the same while an access at an address is held at an admission point (R346) -/
  | held (va : Word) (ps : List Piece)
  /-- a recorded error of the Acre, or of a completion map, with the address and the syllable of its record (R164,
  R244) -/
  | record (code : Nat) (va : Word) (syl : Word) (map : Option Nat)
deriving DecidableEq, Repr

/-- The first address of the sheaf windows (R187). -/
def windowBase : Nat := 0xFFFF0000000000
/-- The first address of the spill window (R176). -/
def spillBase : Nat := 0xFFFFFFFF000000

/-- A resolved access: where it goes, the walks made, and OVFPTR after it. -/
structure Resolved where
  tgt : Target
  walks : List (Nat × List (Nat × Word))
  ovf : Option Word
deriving DecidableEq, Repr

/-- An access cut at 64-byte lines: address and bytes of each part. -/
def splitLines : Nat → Nat → Nat → List (Nat × Nat)
  | 0, _, _ => []
  | fuel + 1, va, len =>
    if len = 0 then []
    else
      let n := min len (64 - va % 64)
      (va, n) :: splitLines fuel (va + n) (len - n)

/-- Parts of a spill-window access (R176): carve-out lines, overflow lines through the page tables without a tenant
check, and zero past the overflow pointer. -/
def State.spillParts (s : State) (t : Task) (k : Acc) (hint : Nat) :
    List (Nat × Nat) → Word → Except (Nat × Nat) (List Piece × Word × List (Nat × List (Nat × Word)))
  | [], ovf => .ok ([], ovf, [])
  | (va, n) :: rest, ovf =>
    if 2 ^ 56 ≤ va then .error (7, va)
    else
      let l := (va - spillBase) / 64
      let size := getBits t.csr.spillsize 6 14
      if l < size then
        let line := getBits t.csr.spillbase 6 14 + l
        if 12288 ≤ line then .error (12, va)
        else
          match s.spillParts t k hint rest ovf with
          | .error e => .error e
          | .ok (ps, o, ws) => .ok (⟨scratchBase t.tiller + 64 * line + va % 64, n, false, noAlloc⟩ :: ps, o, ws)
      else
        let at_ := t.job.ob.toNat + 64 * (l - size)
        if k = .read && getBits ovf 6 50 * 64 ≤ at_ then
          match s.spillParts t k hint rest ovf with
          | .error e => .error e
          | .ok (ps, o, ws) => .ok (⟨2 ^ 52, n, false, noAlloc⟩ :: ps, o, ws)
        else
          match s.checkParts { t.who hint with checkTenant := false } k [(at_ + va % 64, n)] with
          | .error e => .error e
          | .ok c =>
            let ovf' := if k = .write && getBits ovf 6 50 * 64 ≤ at_ then BitVec.ofNat 64 (at_ + 64) else ovf
            match s.spillParts t k hint rest ovf' with
            | .error e => .error e
            | .ok (ps, o, ws) => .ok (c.pieces.map (fun p => { p with fe := false }) ++ ps, o, c.walks ++ ws)

/-- Bits of a piece that the plane's constant range serves (R256): loads of a plot whose active plane is valid. -/
def State.constPiece (s : State) (plot va : Nat) (p : Piece) : Piece :=
  let pl := (s.plot plot).active
  let base := getBits (pl.word 0x10) 0 56
  if pl.valid && base ≤ va && va < base + 0x8000 then { p with pa := 2 ^ 53 + 2 ^ 20 * plot + (va - base) } else p

/-- The pieces of a load with the constant range taken from the plane; the range is whole pages (R256). -/
def State.constPieces (s : State) (plot : Nat) : List (Nat × Nat) → List Piece → List Piece
  | (va, _) :: vs, p :: ps => s.constPiece plot va p :: s.constPieces plot vs ps
  | _, ps => ps

/-- An access of a task of `len` bytes outside the sheaf windows, through the spill window or the page tables: where it goes,
or the fault and the failing address (R176, R184). -/
def State.resolvePlain (s : State) (t : Task) (k : Acc) (a len hint : Nat) : Except (Nat × Nat) Resolved :=
  if spillBase ≤ a && a < 2 ^ 56 then
    match s.spillParts t k hint (splitLines (len / 64 + 2) a len) t.csr.ovfptr with
    | .error e => .error e
    | .ok (ps, o, ws) => .ok ⟨.mem ps, ws, if o = t.csr.ovfptr then none else some o⟩
  else
    match s.checkAccess (t.who hint) k a len with
    | .error e => .error e
    | .ok c => .ok ⟨.mem c.pieces, c.walks, none⟩

/-- A load's target with the constant range taken from the plane (R256). -/
def State.loadTarget (s : State) (t : Task) (a len : Nat) (tgt : Target) : Target :=
  match tgt with
  | .mem ps => if a < contextRegion then .mem (s.constPieces t.plot (pageParts a len) ps) else tgt
  | .window .. => tgt

/-- The pieces of a read with the constant range taken from what its load keeps of it (R255). -/
def ConstRange.pieces (r : ConstRange) : List (Nat × Nat) → List Piece → List Piece
  | (va, _) :: vs, p :: ps =>
    (if r.base ≤ va && va < r.base + r.bytes.length then { p with pa := 2 ^ 54 + (va - r.base) } else p) :: r.pieces vs ps
  | _, ps => ps

/-- A target that a load through a sheaf window reads: the constant range is the plane's at the load's issue (R255, R256). -/
def State.elementTarget (s : State) (t : Task) (seq a len : Nat) (tgt : Target) : Target :=
  match t.q.consts.find? (·.seq == seq), tgt with
  | some r, .mem ps => if a < contextRegion then .mem (r.pieces (pageParts a len) ps) else tgt
  | _, _ => s.loadTarget t a len tgt

/-- Whether an address lies in a sheaf window (R187). -/
def inWindow (a : Nat) : Bool := windowBase ≤ a && a < windowBase + 16 * 2 ^ 32

/-- An access at an address of a window that is bound as `w` (R187). -/
def windowAccess (w : Option Window) (k : Acc) (a len : Nat) : Except (Nat × Nat) Resolved :=
  match w with
  | none => .error (14, a)
  | some w =>
    let o := (a - windowBase) % 2 ^ 32
    let z := 2 ^ w.log2z
    if w.scatter != (k == .write) then .error (14, a)
    else if !(o % z == 0 && len % z == 0 || len < z && o % z + len ≤ z) then .error (6, a)
    else if w.count * z < o + len then .error (14, a)
    else .ok ⟨.window w o len, [], none⟩

/-- The binding of the window of an address (R187). -/
def Queues.windowAt (q : Queues) (a : Nat) : Option Window := Tab.get? q.windows ((a - windowBase) / 2 ^ 32)

/-- An access of a task of `len` bytes at a virtual address, through the windows of the context region or the page
tables: where it goes, or the fault and the failing address (R176, R184, R187). -/
def State.resolve (s : State) (t : Task) (k : Acc) (va : Word) (len : Nat) (hint : Nat := 0) : Except (Nat × Nat) Resolved :=
  if inWindow va.toNat then windowAccess (t.q.windowAt va.toNat) k va.toNat len else s.resolvePlain t k va.toNat len hint

/-- The bookkeeping of a resolved access: walks cached, OVFPTR advanced. -/
def State.resolved (s : State) (uid : Nat) (r : Resolved) : State :=
  match s.task? uid with
  | none => s
  | some t =>
    let s1 := r.walks.foldl (fun s x => s.cacheWalk t.who x.1 x.2) s
    match r.ovf with
    | none => s1
    | some o => s1.onTask uid (fun t => { t with csr := { t.csr with ovfptr := o } })

/-- The target addresses of the elements of a window access, in increasing order, with the bytes each moves; the
indices are read now (R187). -/
def windowElems (w : Window) (off len : Nat) : List (Nat × Nat × Nat) :=
  let z := 2 ^ w.log2z
  if len < z then [(off / z, off % z, len)]
  else (List.range (len / z)).map (fun i => (off / z + i, 0, z))

/-- The line that an access outside the sheaf windows touches first, for its awaited identity. -/
def Target.line : Target → Nat
  | .mem (p :: _) => p.pa / 64
  | _ => 0

/-- Whether a task awaits the value of an atomic or `ldfe` (R201, R202): it goes to neither s0 nor s54. -/
def AmoDst.waits : AmoDst → Bool
  | .reg _ | .stream .. => true
  | .none | .store _ => false

/-! ## The store buffer (R191) -/

/-- Bytes of one line that a store writes, with the page's FE bit and policy, the offset in the line, and the address that a
fault record of them names (R190). -/
structure LinePart where
  line : Nat
  fe : Bool
  off : Nat
  bytes : List Byte
  pol : Policy
  va : Word
deriving DecidableEq, Repr

/-- The bytes of a place, those of later accesses over those of older ones (R191). -/
def Place.bytes (p : Place) : Tab Byte := p.parts.foldl (fun m e => e.bytes.foldl (fun m b => Tab.set m b.1 b.2) m) []

/-- The accesses that have bytes in a place and have not failed. -/
def Place.seqs (p : Place) : List (Nat × Word) := p.parts.filterMap (·.who)

/-- What an access puts into a place. -/
def LinePart.part (l : LinePart) (seq : Nat) : PlacePart := ⟨some (seq, l.va), l.bytes.zipIdx.map (fun b => (l.off + b.2, b.1))⟩

/-- Bytes of one line entering the store buffer: they merge into the youngest place when it is of that line. The place keeps
the FE bit and the slice policy of its first store, whatever hint a later one has, and a place that has left through the fabric
takes no more bytes (DESIGN CHOICE, log entry 54). -/
def Queues.buffer1 (q : Queues) (l : LinePart) (seq : Nat) : Queues :=
  let new : Place := ⟨l.line, l.fe, [l.part seq], l.pol, none⟩
  match q.buffer.getLast? with
  | some p =>
    if p.line = l.line && p.sent.isNone then
      { q with buffer := q.buffer.dropLast ++ [{ p with parts := p.parts ++ [l.part seq] }] }
    else { q with buffer := q.buffer ++ [new] }
  | none => { q with buffer := [new] }

/-- A place without an access that has failed: its bytes go, but from a place that has left they are only disowned (R190). -/
def Place.disown (p : Place) (who : Nat × Word) : Place :=
  if p.sent.isNone then { p with parts := p.parts.filter (fun e => e.who != some who) }
  else { p with parts := p.parts.map (fun e => if e.who = some who then { e with who := none } else e) }

/-- A store buffer without an access that has failed: it writes nothing more, and no second record names it (R190, R354). -/
def Queues.disown (q : Queues) (who : Nat × Word) : Queues :=
  { q with buffer := (q.buffer.map (·.disown who)).filter (fun p => !p.parts.isEmpty) }

/-- Lines put into the store buffer one after the other. -/
def Queues.bufferAll (q : Queues) (ls : List LinePart) (seq : Nat) : Queues := ls.foldl (fun q l => q.buffer1 l seq) q

/-- The lines of pieces with the bytes that a store writes there. -/
def splitStore (va : Word) : List Piece → List Byte → List LinePart
  | [], _ => []
  | p :: ps, bs =>
    (splitLines (p.len / 64 + 2) p.pa p.len).map
      (fun x => ⟨x.1 / 64, p.fe, x.1 % 64, ((bs.take p.len).drop (x.1 - p.pa)).take x.2, p.pol, va⟩) ++
      splitStore va ps (bs.drop p.len)

/-- The youngest byte that a store buffer holds of an address (R214). -/
def Queues.buffered (q : Queues) (pa : Nat) : Option Byte :=
  q.buffer.reverse.findSome? (fun p => if p.line = pa / 64 then Tab.get? p.bytes (pa % 64) else none)

/-- Bytes as the task's own load reads them: the store buffer first (R214). -/
def overlay (q : Queues) : Nat → List Byte → List Byte
  | _, [] => []
  | pa, b :: bs => (q.buffered pa).getD b :: overlay q (pa + 1) bs

/-- The bytes of pieces as a read of the task returns them, those of other packages from `ext`. -/
def State.loadPiecesFrom (s : State) (ext : List Host.Cell) (q : Queues) (ps : List Piece) : List Byte :=
  ps.flatMap (fun p => overlay q p.pa (s.readPiece ext p))

/-- The bytes of pieces as a load of the task returns them. -/
def State.loadPieces (s : State) (q : Queues) (ps : List Piece) : List Byte := s.loadPiecesFrom [] q ps

/-- One place written at home; a place behind the fabric leaves with a request instead (`execStoreBufferWriteback`). -/
def State.writePlace (s : State) (p : Place) : State :=
  (p.bytes.foldl (fun s b => s.store (p.line * 64 + b.1) [b.2]) s).touchLine p.line p.pol

/-- Whether a write of a piece crosses a SerDes group: a second-tier line of a published window that the slice holds takes it
there, unless the access writes through (R172, R179). -/
def State.farWrite (s : State) (p : Piece) : Bool := s.far p || (s.needsFabric p.pa && p.pol.cls == 3)

/-- Whether the write of a place crosses a SerDes group. -/
def State.placeFar (s : State) (p : Place) : Bool := s.farWrite ⟨p.line * 64, 64, p.fe, p.pol⟩

/-! ## Error records (R371) and requests through the fabric (R351, R354) -/

/-- An error put in a record: the first since it was cleared; later ones raise COUNT (R371). -/
def State.logError (s : State) (off code src : Nat) (addr : Word) : State :=
  let w := s.reg off
  if w.getLsbD 63 then s.setReg off (putBits w 32 16 (min 65535 (getBits w 32 16 + 1)))
  else
    ((s.setReg off (BitVec.ofNat 64 (2 ^ 63 + code % 256 * 2 ^ 48 + 2 ^ 32 + src % 4096))).setReg (off + 8)
      (BitVec.ofNat 64 (getBits addr 0 56))).report (.record off)

/-- A request sent or held at its admission point, with the present identity as its tag. -/
def State.request (s : State) (p : Purpose) (va : Word) (pa : Nat) (op : FarOp) (pol : Policy) (g : Nat) (held : Bool) :
    State :=
  let r : Req := ⟨s.fresh, p, va, pa, op, pol, g, held, false, (s.reg 0x160100).toNat, false⟩
  let s1 := if held then s.mint else s.mint.sendFlit g
  { s1 with fab := { s1.fab with reqs := s1.fab.reqs ++ [r] } }

/-- The group whose error record a failed access of an address is logged in: the one that serves it, or group 0 where
none does (DEDUCED, log entry 12). -/
def State.recordGroup (s : State) (pa : Nat) : Nat :=
  match s.pathTo pa with
  | .ok (g, _) => g
  | .error _ =>
    match rangeOf (s.localAddr pa) with
    | .tier2 => ((List.range 32).find? (fun g => (s.group g).withdrew pa)).getD
        (((List.range 128).find? (fun n => s.windowCovers n pa)).elim 0 (fun n => bitsOf (s.windowEntry n).1.toNat 56 5))
    | .remote pkg _ => (Tab.getD s.fab.routes pkg []).headD 0
    | _ => 0

/-- A fault record for an access of a task: the late-access fault to come, and the log (R190, R354). -/
def State.faultRecord (s : State) (uid : Nat) (va : Word) (pa g cause : Nat) : State :=
  let ctx := (s.task? uid).elim 0 Task.no
  (s.onTask uid (fun t => t.late va)).logError (0x500400 + 0x20 * g) cause ctx (BitVec.ofNat 64 pa)

/-! ## Notices (R352, R353) -/

/-- Whether a task may take a return of units or a late fault: Ready, Issuing, Blocked or Yielded (R294). -/
def Task.takesReturn (t : Task) : Bool :=
  match t.phase with
  | .ended | .aborted => false
  | _ => true

/-- An exit notice that the fabric cannot deliver: its sender takes a late-access fault with FADDR 0; where it has ended, its
die's notice error record takes the cause (R266, R371). -/
def State.exitLost (s : State) (n : Notice) (cause : Nat) : State :=
  match (s.task? n.uid).filter Task.takesReturn with
  | some _ => s.onTask n.uid (fun t => t.late 0)
  | none => s.logError (0x500000 + 0x20 * (n.ctx / 1024)) cause n.ctx (BitVec.ofNat 64 (getBits n.target 0 33))

/-- A notice without a path is lost: an exit notice to its sender's account, a path notice to nobody's. -/
def State.noticeLost (s : State) (n : NoticeOut) (cause : Nat) : State :=
  match n.body with
  | .exit x => s.exitLost x cause
  | .path .. => s

/-- The path of a notice: the group that it was queued on as that entered QUIESCE (R346), else the number of its receiver is
hashed in place of an address (R353). -/
def State.noticePath (s : State) (n : NoticeOut) : Option Nat := n.bound.orElse (fun _ => pathIn (s.pathSet n.pkg) n.pkg)

/-- Whether a notice may leave on its path: no data holds it up there (R353), but a width operation does, and it leaves a group
that drains only if it was queued there before (R346). -/
def State.laneOpen (s : State) (n : NoticeOut) (g : Nat) : Bool :=
  if n.bound.isSome then (s.group g).carries else (s.group g).st == .up

/-- The queued notices tried in their order: one leaves on its path unless the path is held, an earlier one to the same
receiver is still queued, or one sent there on another path is not acknowledged; where no path is left it is lost, with cause 4
(R353, R354). -/
def State.flowNotices (s : State) : List NoticeOut → List NoticeOut → State
  | [], kept => { s with fab := { s.fab with notices := kept } }
  | n :: ns, kept =>
    if n.sent.isSome then s.flowNotices ns (kept ++ [n])
    else
      match s.noticePath n with
      | none => (s.noticeLost n 4).flowNotices ns kept
      | some g =>
        if !s.laneOpen n g || kept.any (fun m => m.pkg == n.pkg && m.sent.elim true (fun e => e.1 != g)) then
          s.flowNotices ns (kept ++ [n])
        else (s.sendLane g).flowNotices ns (kept ++ [{ n with sent := some (g, (s.group g).txSeq) }])

/-- Every queued notice tries its path. -/
def State.sendQueued (s : State) : State := s.flowNotices s.fab.notices []

/-- A notice raised for another package; `on` names a group that still carries it though it drains (R352). -/
def State.raiseNotice (s : State) (pkg : Nat) (b : NoticeBody) (on : Option Nat := none) : State :=
  ({ s with fab := { s.fab with notices := s.fab.notices ++ [⟨pkg, b, on, none⟩] } } : State).sendQueued

/-! ## Writes of the engines (R212, R218, R340, R350) -/

/-- The lines of a piece, each with its part of it: requests through the fabric are of one line each, within the 256 bytes of
R340 and on the path of their own line (R351). -/
def lineParts (p : Piece) : List Piece :=
  if 2 ^ 52 ≤ p.pa then [p] else (splitLines (p.len / 64 + 2) p.pa p.len).map (fun x => { p with pa := x.1, len := x.2 })

/-- A fault record of a group for a request of this package that no queued access awaits (R354, R371): an engine takes note of
what it has lost, and a task takes a late-access fault, once for each access. -/
def State.lostReq (s : State) (why : Purpose) (tag : Nat) (va : Word) (pa g cause : Nat) : State :=
  let log (s : State) (src : Nat) : State := s.logError (0x500400 + 0x20 * g) cause src (BitVec.ofNat 64 pa)
  match why with
  | .engine src => log { s with fab := { s.fab with lost := s.fab.lost ++ [(⟨tag, va, cause⟩ : LostWrite)] } } src
  | .pref src => log s src
  | .form uid told =>
    if told then s
    else
      let mark (r : Req) : Req := if r.purpose == .form uid false then { r with purpose := .form uid true } else r
      ({ s with fab := { s.fab with reqs := s.fab.reqs.map mark } } : State).faultRecord uid va pa g cause
  | .hold => { s with fab := { s.fab with gone := s.fab.gone ++ [(pa / 64, cause)] } }
  | _ => log s 0

/-- The part of a write in one line sent to its home behind the fabric, `fill` where the line turns full with it (R185, R218);
where no path is left since the write was admitted, it ends in a fault record (R354). -/
def State.sendLine (s : State) (why : Purpose) (va : Word) (p : Piece) (bs : List Byte) : State :=
  match s.pathTo p.pa with
  | .ok (g, held) => s.request why va p.pa (if p.fe then .fill bs else .write bs) p.pol g held
  | .error cause => (s.lostReq why s.fresh va p.pa (s.recordGroup p.pa) cause).mint

/-- Bytes sent to the lines of a piece. -/
def State.sendPiece (s : State) (why : Purpose) (va : Word) (p : Piece) (bs : List Byte) : State :=
  (lineParts p).foldl (fun s l => s.sendLine why (va + BitVec.ofNat 64 (l.pa - p.pa)) l ((bs.drop (l.pa - p.pa)).take l.len)) s

/-- Bytes written into the pieces of a write at `va`: at home, where the lines are looked up and allocated (R179, R180), or by
requests whose acknowledgements come later. -/
def State.writePieces (s : State) (why : Purpose) : Word → List Piece → List Byte → State
  | _, [], _ => s
  | va, p :: ps, bs =>
    let s' := if s.farWrite p then s.sendPiece why va p (bs.take p.len) else (s.store p.pa (bs.take p.len)).touch [p]
    s'.writePieces why (va + BitVec.ofNat 64 p.len) ps (bs.drop p.len)

/-- The requests whose tags lie in a span, of writes that have not been acknowledged. -/
def State.unacked (s : State) (span : Nat × Nat) : Bool :=
  s.fab.reqs.any (fun r => span.1 ≤ r.tag && r.tag < span.2 && (match r.purpose with | .engine _ | .form .. => true | _ => false))

/-- The first write of a span of tags that has ended in a fault record. -/
def State.lostIn (s : State) (span : Nat × Nat) : Option LostWrite :=
  s.fab.lost.find? (fun l => span.1 ≤ l.tag && l.tag < span.2)

/-- The fault records of a span taken note of. -/
def State.noted (s : State) (span : Nat × Nat) : State :=
  { s with fab := { s.fab with lost := s.fab.lost.filter (fun l => !(span.1 ≤ l.tag && l.tag < span.2)) } }

/-! ## Slots (R309) -/

/-- A slot. -/
def State.slot (s : State) (n : Nat) : Slot := Tab.getD s.slots n Slot.zero

/-- A slot written. -/
def State.setSlot (s : State) (n : Nat) (x : Slot) : State := { s with slots := Tab.set s.slots n x }

/-- A field of a bind record. -/
def Slot.get (x : Slot) (i lo n : Nat) : Nat := getBits (x.words.getD i 0) lo n

/-- A bind record with a field written. -/
def Slot.put (x : Slot) (i lo n v : Nat) : Slot :=
  { x with words := x.words.setIfInBounds i (putBits (x.words.getD i 0) lo n v) }

/-- V of a slot. -/
def Slot.v (x : Slot) : Bool := x.get 0 63 1 == 1
/-- STATE of a slot: 0 free, 1 accepted, 2 held, 3 bound, 4 drained. -/
def Slot.st (x : Slot) : Nat := if x.v then x.get 0 60 3 else 0
/-- DISP of a slot. -/
def Slot.disp (x : Slot) : Bool := x.get 0 59 1 == 1
/-- GRID of a slot. -/
def Slot.grid (x : Slot) : Nat := x.get 1 0 32
/-- TENANT of a slot. -/
def Slot.tenant (x : Slot) : Nat := x.get 0 48 6
/-- NEXT of a slot. -/
def Slot.next (x : Slot) : Nat := x.get 2 0 40
/-- G of a slot. -/
def Slot.g (x : Slot) : Nat := x.get 3 0 40
/-- CTR of a slot. -/
def Slot.ctrVa (x : Slot) : Word := BitVec.ofNat 64 (x.get 10 0 56)
/-- The gang size of a slot (R12). -/
def Slot.size (x : Slot) : Nat := (x.get 1 32 7 + 1) * (x.get 1 40 7 + 1) * (x.get 1 48 7 + 1)

/-- The slot of a grid that is bound or drained. -/
def State.slotOfGrid (s : State) (grid : Nat) : Option (Nat × Slot) :=
  s.slots.find? (fun e => (e.2.st == 3 || e.2.st == 4) && e.2.grid == grid)

/-! ## Registers in memory (R35, R36, R195) -/

/-- A `v` register from the bytes that a typed load reads: 6-bit elements expand into bytes. -/
def unpackReg (tag : Nat) (bs : List Byte) : Vec :=
  let n := leNat bs
  if tag6 tag then
    BitVec.ofNat 1024 ((List.range 128).foldl (fun acc i => acc + bitsOf n (6 * i) 6 * 2 ^ (8 * i)) 0)
  else BitVec.ofNat 1024 n

/-- The bytes that a typed store writes. -/
def packReg (tag : Nat) (v : Vec) : List Byte :=
  if tag6 tag then
    toLe 96 ((List.range 128).foldl (fun acc i => acc + bitsOf v.toNat (8 * i) 6 * 2 ^ (6 * i)) 0)
  else toLe 128 v.toNat

/-- The bytes that a store writes. -/
def storeBytes (vec : Bool) (size : Nat) (d : StoreData) (v : Vec) : List Byte :=
  if vec then packReg d.tag.toNat v else toLe size v.toNat

/-! ## Counter lines that a launch holds (R320) -/

/-- What a launch holds back of the launcher's later accesses (R320): nothing, the counter's line, or all of them. -/
inductive Held where
  | lines (ls : List Nat) | all
deriving DecidableEq, Repr

/-- Whether an entry of the store queue ahead of access `seq` may write a line; one whose place is not known may. -/
def StoreAcc.mayWrite (e : StoreAcc) (seq line : Nat) : Bool :=
  match e with
  | .sta n _ (.mem (p :: ps)) .. => n < seq && (p :: ps).any (fun q => (pieceLines q).contains line)
  | .sta n .. => n < seq
  | .marker _ n _ _ (.mem ps) .. => n < seq && ps.any (fun q => (pieceLines q).contains line)
  | .marker .. => false

/-- The stores below `seq` that may write a line entered into a store buffer in their order; none while one of them has no data
yet, or its place or its effect is not known. -/
def enterBelow (seq line : Nat) : List StoreAcc → List StoreData → Queues → Option Queues
  | [], _, q => some q
  | .sta n va (.mem (p :: ps)) vec size h k :: es, ds, q =>
    if !(StoreAcc.sta n va (.mem (p :: ps)) vec size h k).mayWrite seq line then enterBelow seq line es (ds.drop 1) q
    else
      match ds with
      | [] => none
      | d :: rest =>
        match d.data with
        | none => none
        | some v => enterBelow seq line es rest (q.bufferAll (splitStore va (p :: ps) (storeBytes vec size d v)) (n + 1))
  | .sta n .. :: es, ds, q => if n < seq then none else enterBelow seq line es (ds.drop 1) q
  | e :: es, ds, q => if e.mayWrite seq line then none else enterBelow seq line es ds q

/-- The store buffer of a task as its accesses below `seq` leave it, as far as a line goes; none where that is not known yet. -/
def Task.bufferBelow (t : Task) (seq line : Nat) : Option Queues :=
  let old (p : Place) : Place := { p with parts := p.parts.filter (fun e => e.who.elim false (fun w => w.1 ≤ seq)) }
  (enterBelow seq line t.flow.frame.stores t.flow.frame.sdata { t.q with buffer := t.q.buffer.map old }).bind
    (fun q => enterBelow seq line t.q.stores t.q.sdata q)

/-- The line of the counter that a launch record at `rec_` names, where its bytes read through `q`; none where none is named. -/
def State.namedLine (s : State) (w : Who) (q : Queues) (ps : List Piece) : List Nat :=
  let va := leNat (s.loadPieces q ps) % 2 ^ 56
  match s.checkAccess w .read (va / 8 * 8) 8 with
  | .error _ => []
  | .ok d => (d.pieces.map (fun p => p.pa / 64)).take 1

/-- The line of the counter that a task's launch names, as the record stands with the task's accesses below `seq` performed; none
where that cannot be told: the record lies on another package, or a store ahead of the launch has no data yet. -/
def State.launchLine (s : State) (t : Task) (w : Who) (rec_ seq : Nat) : Option (List Nat) :=
  match s.checkAccess w .read (rec_ + 0x50) 8 with
  | .error _ => some []
  | .ok c =>
    if c.pieces.any (fun p => s.isRemote p.pa) then none
    else
      match c.pieces with
      | [] => some []
      | p :: _ => (t.bufferBelow seq (p.pa / 64)).map (fun q => s.namedLine w q c.pieces)

/-- What the launch of a slot still holds back (R320): the line that the dispatcher has found; before it has read the record, the
line that the record named at the launch with what the launcher had pushed before it, and the one that its bytes at home name
now. While the first cannot be told no address is known, and every later access waits (DESIGN CHOICE, log entry 53). -/
def State.heldBy (s : State) (x : Slot) : Held :=
  if !x.holding then .lines []
  else if x.ctr != 0 then .lines [x.ctr / 64]
  else
    let t := (x.launcher.bind s.task?).getD Task.zero
    let w : Who := { plot := t.plot, tenant := x.tenant, pl := x.launcherPl }
    let r := x.get 11 0 56
    match x.named.orElse (fun _ => s.launchLine t w r x.launcherSeq) with
    | none => .all
    | some ls => .lines (ls ++ (s.launchLine Task.zero w r 0).getD [])

/-- Whether a launch of the task made before access `seq` holds back a line (R320). -/
def State.holds (s : State) (uid seq line : Nat) : Bool :=
  s.slots.any (fun e => e.2.holding && e.2.launcher == some uid && e.2.holdSeq ≤ seq &&
    (match s.heldBy e.2 with
     | .lines ls => ls.contains line
     | .all => true))

/-- Whether pieces are held back. -/
def State.piecesHeld (s : State) (uid seq : Nat) (ps : List Piece) : Bool :=
  ps.any (fun p => (pieceLines p).any (s.holds uid seq))

/-! ## Accesses through a sheaf window (R187, R214) -/

/-- What an access finds at its turn instead of its pieces: a fault, a read that must first be answered through the fabric, an
empty sync line of its indices, or a line that a launch holds back. -/
inductive Reach where
  | fault (code va : Nat)
  | ask (va : Word) (p : Piece)
  | empty (va : Word)
  | wait
deriving DecidableEq, Repr

/-- The answer that an access has had for a piece behind the fabric. -/
def Queues.got (q : Queues) (seq : Nat) (p : Piece) : Option (List Byte) :=
  (q.gets.find? (fun g => g.seq == seq && g.pa == p.pa && g.len == p.len)).bind (·.data)

/-- The part of a piece in one line as an access of the task reads it: what the fabric has answered, with the store buffer as it
stood then, else the store buffer over memory here (R212, R214). -/
def State.partBytes (s : State) (q : Queues) (seq : Nat) (p : Piece) : Option (List Byte) :=
  match q.got seq p with
  | some bs => some bs
  | none => if s.far p then none else some (overlay q p.pa (s.readPiece [] p))

/-- The bytes of a piece of a load that keeps the constant range of its issue (R255). -/
def Queues.constBytes (q : Queues) (seq : Nat) (p : Piece) : List Byte :=
  (((q.consts.find? (·.seq == seq)).elim [] (·.bytes)).drop (p.pa - 2 ^ 54)).take p.len

/-- The bytes of a piece as an access of the task reads them; of the accesses of a stream unit, those behind the fabric from
`ext`. None while a part of it has still to come from there. -/
def State.pieceBytes (s : State) (q : Queues) (seq : Nat) (ext : Option (List Host.Cell)) (p : Piece) : Option (List Byte) :=
  if 2 ^ 54 ≤ p.pa then some (q.constBytes seq p)
  else
    match ext with
    | some ext => some (overlay q p.pa (s.readPiece ext p))
    | none =>
      if s.far p || q.gets.any (·.seq == seq) then ((lineParts p).mapM (s.partBytes q seq)).map List.flatten
      else some (overlay q p.pa (s.readPiece [] p))

/-- The address of the first empty sync line among the pieces of an access at `va` (R185). -/
def State.emptyAt (s : State) (va : Word) : List Piece → Option Word
  | [] => none
  | p :: ps =>
    match (if p.fe && !s.isRemote p.pa then (pieceLines p).find? (fun l => s.empties.contains l) else none) with
    | some l => some (va + BitVec.ofNat 64 (l * 64 - p.pa))
    | none => s.emptyAt (va + BitVec.ofNat 64 p.len) ps

/-- The pieces of a resolved access; none for a window. -/
def Target.pieces : Target → List Piece
  | .mem ps => ps
  | .window .. => []

/-- The index word of element `j` of a window, read as a load of the task (R187). -/
def State.windowIndex (s : State) (uid seq : Nat) (ext : Option (List Host.Cell)) (w : Window) (j : Nat) :
    Except Reach (Nat × State) :=
  match s.task? uid with
  | none => .error (.fault 14 0)
  | some t =>
    let va := w.index + BitVec.ofNat 64 (4 * j)
    match s.resolvePlain t .read va.toNat 4 0 with
    | .error e => .error (.fault e.1 e.2)
    | .ok r =>
      let ps := (s.elementTarget t seq va.toNat 4 r.tgt).pieces
      if s.piecesHeld uid seq ps then .error .wait
      else
        match s.emptyAt va ps with
        | some a => .error (.empty a)
        | none =>
          match (ps.flatMap lineParts).find? (fun p => (s.pieceBytes t.q seq ext p).isNone) with
          | some p => .error (.ask va p)
          | none =>
            .ok (leNat (ps.flatMap (fun p => (s.pieceBytes t.q seq ext p).getD [])), (s.resolved uid r).touch ps)

/-- The pieces of elements of a window access with their target addresses: each element's index word and target are
translated and checked in turn (R187). A target on a sync page is refused (R185). -/
def State.windowReach (s : State) (uid seq : Nat) (ext : Option (List Host.Cell)) (w : Window) (k : Acc) (hint : Nat) :
    List (Nat × Nat × Nat) → Except Reach (List (Word × Piece) × State)
  | [] => .ok ([], s)
  | (j, off, len) :: rest =>
    match s.windowIndex uid seq ext w j with
    | .error e => .error e
    | .ok (idx, s1) =>
      let va := w.base + BitVec.ofNat 64 (idx * 2 ^ w.log2z + off)
      let t := (s1.task? uid).getD Task.zero
      match s1.resolvePlain t k va.toNat len hint with
      | .error e => .error (.fault e.1 e.2)
      | .ok r =>
        let ps := (if k == .read then s1.elementTarget t seq va.toNat len r.tgt else r.tgt).pieces
        if ps.any (·.fe) then .error (.fault 13 va.toNat)
        else
          match (s1.resolved uid r).windowReach uid seq ext w k hint rest with
          | .error e => .error e
          | .ok (qs, s2) => .ok (ps.map (fun p => (va, p)) ++ qs, s2)

/-! ## Returns of budgets (R294) -/

/-- Budgets with units returned, `d` being the dues of the cycle: the addition comes before its charges, so what they lacked is
paid first, and an exhaustion that they caused is none where units are left (R306). A yield asked for otherwise stays. -/
def Csrs.returned (c : Csrs) (d : Dues) (bi bm : Nat) : Csrs :=
  let i := addUnits c.bi (bi - d.bi)
  let m := addUnits c.bm (bm - d.bm)
  let ei := d.bits.getLsbD 7 && i != 0
  let em := d.bits.getLsbD 8 && m != 0
  let w1 := if ei then putBit c.tsw 7 false else c.tsw
  let w2 := if em then putBit w1 8 false else w1
  let y := d.bits.getLsbD 6 && (ei || em) && !tswBexh w2 && !tswMexh w2 && !w2.getLsbD 9
  { c with bi := i, bm := m, tsw := if y then putBit w2 6 false else w2 }

/-- The dues of a task in the present cycle. -/
def State.dues (s : State) (t : Task) : Dues := if t.job.dues.at_ = s.cycle + 1 then t.job.dues else ⟨0, 0, 0, 0⟩

/-- The budgets and the status of a task in its saved image, over its other control registers. -/
def State.savedCsrs (s : State) (t : Task) : Csrs :=
  let a := t.job.savedAt
  { t.csr with tsw := s.word (a + 0x40), bi := s.word (a + 0x50), bm := s.word (a + 0x58) }

/-- The same written. -/
def State.saveCsrs (s : State) (t : Task) (c : Csrs) : State :=
  let a := t.job.savedAt
  ((s.store (a + 0x40) (toLe 8 c.tsw.toNat)).store (a + 0x50) (toLe 8 c.bi.toNat)).store (a + 0x58) (toLe 8 c.bm.toNat)

/-- Units added to a task's own budgets, or to the saved image of a Yielded one (R295, R306). -/
def State.addBudget (s : State) (uid : Nat) (bi bm : Nat) : State :=
  match s.task? uid with
  | none => s
  | some t =>
    let d := s.dues t
    let left : Dues := { d with bi := d.bi - bi, bm := d.bm - bm }
    let s1 := s.setTask uid { t with csr := t.csr.returned d bi bm, job := { t.job with dues := left } }
    if t.phase = .yielded then s1.saveCsrs t ((s.savedCsrs t).returned d bi bm) else s1

/-- A charge that falls due after issue (R243, R288): against the task's budgets, or those of the saved image of a
Yielded one. -/
def State.chargeLate (s : State) (uid bi bm : Nat) : State :=
  match s.task? uid with
  | none => s
  | some t =>
    if t.phase = .yielded then
      let c := s.savedCsrs t
      (s.setTask uid { t with job := t.job.charged s.cycle c bi bm }).saveCsrs t (c.charge bi bm)
    else s.setTask uid (t.charge s.cycle bi bm)

/-- Units added to a grid's pools. -/
def State.addPool (s : State) (n bi bm : Nat) : State :=
  let x := s.slot n
  s.setSlot n ((x.put 7 0 48 (min maxUnits (x.get 7 0 48 + bi))).put 8 0 48 (min maxUnits (x.get 8 0 48 + bm)))

/-- The parent of a grid where it is live. -/
def State.parentOf (s : State) (x : Slot) : Option Nat :=
  if x.get 13 12 1 = 1 then
    x.launcher.filter (fun u => match s.task? u with | some t => t.takesReturn | none => false)
  else none

/-- Whether a task holds its tiller's stage in the present cycle. -/
def State.holds1 (s : State) (t : Task) : Bool :=
  let y := s.tiller t.tiller
  s.cycle < y.freeAt && y.last == t.no % 8

/-- A task's units returned to its parent, or to its grid's pool (R294). -/
def State.returnUnits (s : State) (slot bi bm : Nat) : State :=
  match s.parentOf (s.slot slot) with
  | some u => s.addBudget u bi bm
  | none => s.addPool slot bi bm

/-- A grid's pools returned at its completion: to the parent, or to the parent's grid pool, or discarded. -/
def State.returnPool (s : State) (n : Nat) : State :=
  let x := s.slot n
  match s.parentOf x with
  | some u => s.addBudget u (x.get 7 0 48) (x.get 8 0 48)
  | none =>
    match x.parent.filter (fun p => (s.slot p.1).v && (s.slot p.1).grid == p.2) with
    | some p => s.addPool p.1 (x.get 7 0 48) (x.get 8 0 48)
    | none => s

/-! ## Completion of groups and grids (R15) -/

/-- The reservations of a slot's record go when it leaves the bound state (R316). -/
def State.unreserve (s : State) (n : Nat) : State :=
  let f (p : Plot) : Plot := { p with reserved := p.reserved.filter (· != n) }
  { s with plots := Tab.mapVal s.plots (fun _ p => f p) }

/-- A slot freed; its bind record's V turns 0. -/
def State.freeSlot (s : State) (n : Nat) : State := { s.unreserve n with slots := Tab.erase s.slots n }

/-- The dispatcher's access to a counter on another package: a request, or the log of why it cannot go (R15, R354). -/
def State.counterSend (s : State) (n : Nat) (op : FarOp) : State :=
  let x := s.slot n
  match s.pathTo x.ctr with
  | .error c => s.logError (0x500400 + 0x20 * s.recordGroup x.ctr) c 0 (BitVec.ofNat 64 x.ctr)
  | .ok (g, held) => s.request .posted x.ctrVa x.ctr op noAlloc g held

/-- The counter word of a grid, ERR and COUNT: what is stored at home, or has been sent to another package. -/
def State.counter (s : State) (n : Nat) : Word :=
  let x := s.slot n
  if s.isRemote x.ctr then BitVec.ofNat 64 ((if x.errored then 2 ^ 63 else 0) + x.count % 2 ^ 63) else s.word x.ctr

/-- The dispatcher's access to the counter's line of a slot: at home, where the line is looked up and allocated (R179, R180), or
by a request. -/
def State.onCounter (s : State) (n : Nat) (op : FarOp) (f : State → State) : State :=
  let x := s.slot n
  if s.isRemote x.ctr then s.counterSend n op else (f s).touchLine (x.ctr / 64) x.ctrPol

/-- The counter word written at its home. -/
def State.setCounter (s : State) (n : Nat) (w : Word) : State :=
  s.onCounter n (.write (toLe 8 w.toNat)) (fun s => s.store (s.slot n).ctr (toLe 8 w.toNat))

/-- The counter's line turns full at its home. -/
def State.fillCounter (s : State) (n : Nat) : State := s.onCounter n .setFull (fun s => s.setFull (s.slot n).ctr)

/-- The counter zeroed and its line empty, as a launch leaves it (R15). -/
def State.resetCounter (s : State) (n : Nat) : State :=
  (s.setCounter n 0).onCounter n .setEmpty (fun s => s.setEmpty (s.slot n).ctr)

/-- A grid completes: its counter line turns full, its pools return, its slot is freed. -/
def State.gridComplete (s : State) (n : Nat) : State := ((s.fillCounter n).returnPool n).freeSlot n

/-- One group of a grid completes: COUNT rises, and ERR is set where the group errs. -/
def State.groupComplete (s : State) (n group : Nat) (err : Bool) : State :=
  let x := s.slot n
  let w := s.counter n
  let s1 := s.setCounter n (putBits (putBit w 63 (w.getLsbD 63 || err)) 0 63 (getBits w 0 63 + 1))
  s1.setSlot n { x with live := Tab.erase x.live group, count := x.count + 1, errored := x.errored || err }

/-- The grids with COUNT = G complete at the end of the cycle, behind every `grow` of the cycle (R15, R326). -/
def State.endGrids (s : State) : State :=
  (s.slots.filter (fun e => e.2.st == 4 && e.2.g == e.2.count)).foldl (fun s e => s.gridComplete e.1) s

/-- A task leaves the table at Done or Aborted: its context and tiles are free, and its group completes with its last
member (R24), unless its grid has faulted (R15). -/
def State.leave (s : State) (uid : Nat) (err : Bool) : State :=
  match s.task? uid with
  | none => s
  | some t =>
    let s1 := { s with tasks := Tab.erase s.tasks uid, held := s.held.filter (fun h => h.2.uid != uid) }
    let x := s1.slot t.job.slot
    if !x.v || x.grid != t.job.grid then s1
    else
      let bad := (Tab.getD x.live t.job.group false) || err
      let s2 := s1.setSlot t.job.slot { x with live := Tab.set x.live t.job.group bad }
      if (s1.gang t).isEmpty then s2.groupComplete t.job.slot t.job.group bad else s2

/-- The launcher of a grid ends while its launch is pending: PV turns 0 (R326). -/
def State.orphan (s : State) (uid : Nat) : State :=
  { s with slots := Tab.mapVal s.slots (fun _ x => if x.launcher = some uid then x.put 13 12 1 0 else x) }

/-! ## Aborts (R337) -/

/-- Whether a holder is a task. -/
def Holder.is (h : Holder) (uid : Nat) : Bool := h == .task uid

/-- Whether the lease table has an entry of a task, held or releasing. -/
def Plot.keeps (p : Plot) (uid : Nat) : Bool := p.leases.any (fun e => e.2.holder.is uid)

/-- The entry of a lease whose command holds the array, if any. -/
def Plot.busy (p : Plot) : Option Nat := if p.began.isSome then p.running else none

/-- A task's requests, its queued commands and its entries in the Acre go; a command that runs completes, and its entry is
free then (R169). -/
def Plot.dropTask (p : Plot) (uid : Nat) : Plot :=
  let last (l : Lease) : Lease :=
    { l with cmds := l.cmds.take 1, err := none, releasing := true, pending := false, token := none }
  { p with
    leases := (p.leases.filter (fun e => !e.2.holder.is uid || p.busy == some e.1)).map
      (fun e => if e.2.holder.is uid then (e.1, last e.2) else e)
    waiting := p.waiting.filter (fun r => !r.holder.is uid)
    running := match p.running with
      | some e => if (Tab.get? p.leases e).any (fun l => l.holder.is uid) && p.busy.isNone then none else some e
      | none => none }

/-- A task's Drill commands that have not started go, started ones run on without a map; its maps are released and
cleared (R226, R231). -/
def Tiller.dropTask (x : Tiller) (uid : Nat) : Tiller :=
  { x with
    maps := x.maps.filter (fun e => e.2.owner != some uid)
    drill := (x.drill.filter (fun c => c.started || c.uid != uid)).map
      (fun c => if c.uid = uid then { c with map := 64 } else c) }

/-- A task's entries in a die's engines that have not started go (R226). -/
def Die.dropTask (d : Die) (uid : Nat) : Die :=
  { d with
    colls := d.colls.filter (fun e => e.started || e.uid != uid)
    samples := d.samples.filter (fun e => e.uid != uid)
    fills := d.fills.filter (fun e => match e with | .glean _ u .. => u != uid | _ => true)
    notices := d.notices.filter (fun e => e.uid != uid) }

/-- The addresses of the save regions of a context (R335, R370). -/
def State.saveBase (s : State) (ctx : Nat) : Nat := (s.reg (0x200000 + 16 * ctx)).toNat
/-- The address of the saved tiles of a context. -/
def State.extBase (s : State) (ctx : Nat) : Nat := (s.reg (0x200008 + 16 * ctx)).toNat

/-- Word 0 of a save image (R335). -/
def saveHead (kind : Nat) (t : Task) : Word :=
  BitVec.ofNat 64 (2 ^ 63 + kind * 2 ^ 60 + t.job.kernel % 64 * 2 ^ 40 + t.job.ver % 2 ^ 32)

/-- The header and the abort record in the SAVE region of an aborted task. -/
def State.abortImage (s : State) (t : Task) (code cause addr : Nat) : State :=
  let a := s.saveBase t.no
  s.store a (toLe 8 (saveHead 2 t).toNat ++ toLe 8 t.job.ob.toNat ++
    toLe 8 (code % 32 * 2 ^ 59 + cause % 8 * 2 ^ 56 + addr % 2 ^ 56))

/-- What is left of a task at its abort: its store buffer, and its tiles while the Acre still reads them. -/
def Task.halted (t : Task) : Task :=
  { t with
    ctx := none
    phase := .aborted
    flow := Flow.zero
    q := { Queues.zero with buffer := t.q.buffer, seq := t.q.seq }
    job := { t.job with left := t.no, work := [], lease := none, acreErr := none } }

/-- An Aborted task leaves the table once its store buffer is written home and its running Acre command is complete (R15,
R169, R224). -/
def State.leaveDrained (s : State) (uid : Nat) : State :=
  match s.task? uid with
  | none => s
  | some t => if t.phase = .aborted && t.q.buffer.isEmpty && !(s.plot t.plot).keeps uid then s.leave uid true else s

/-- One member aborted: its buffered stores are written at home, everything else of it goes (R224, R337). A buffer with
stores for other packages, or for second-tier memory, drains in its order, and the task leaves with the last of them. -/
def State.abortOne (s : State) (uid code cause addr : Nat) : State :=
  match s.task? uid with
  | none => s
  | some t =>
    if t.phase = .aborted then s
    else
      let away := t.q.buffer.any (fun p => p.sent.isSome || s.placeFar p)
      let s1 := if away then s else t.q.buffer.foldl State.writePlace s
      let s2 := s1.abortImage t code cause addr
      let s3 := { s2 with
        plots := Tab.mapVal s2.plots (fun _ p => p.dropTask uid)
        tillers := Tab.mapVal s2.tillers (fun _ x => x.dropTask uid)
        dies := Tab.mapVal s2.dies (fun _ d => d.dropTask uid)
        held := s2.held.filter (fun h => h.2.uid != uid) }
      let h := if away then t.halted else { t.halted with q := { t.halted.q with buffer := [] } }
      ((s3.orphan uid).setTask uid h).leaveDrained uid

/-- The gang of a task aborts: the task with the record given, every other member with code 31 and CAUSE 5; one report
names the first (R25, R337). -/
def State.abortGang (s : State) (uid code cause addr : Nat) : State :=
  match (s.task? uid).filter (fun t => t.phase != .aborted) with
  | none => s
  | some t =>
    let s0 := s.report (.abort t.job.grid t.job.group t.no code cause (BitVec.ofNat 64 addr))
    let others := (s.gang t).filter (fun e => e.1 != uid && e.2.phase != .aborted)
    let s1 := others.foldl (fun s e => s.abortOne e.1 31 5 e.2.csr.faddr.toNat) s0
    s1.abortOne uid code cause addr

/-- One abort report per gang of a grid: its first member (R337). -/
def State.reportGangs (s : State) (cause : Nat) : List (Nat × Task) → List Nat → State
  | [], _ => s
  | (_, t) :: rest, seen =>
    if seen.contains t.job.group then s.reportGangs cause rest seen
    else (s.report (.abort t.job.grid t.job.group t.no 31 cause t.csr.faddr)).reportGangs cause rest (t.job.group :: seen)

/-- The grid of a slot faults: resident groups abort, undispatched indices are discarded, ERR is set, COUNT stays at the
groups completed so far, and the line turns full, in one action (R15): a member that leaves counts no more. -/
def State.faultGrid (s : State) (n cause : Nat) : State :=
  let x := s.slot n
  let live := s.tasks.filter (fun e => e.2.job.slot == n && e.2.job.grid == x.grid && e.2.phase != .aborted)
  let s1 := ((s.reportGangs cause live []).setCounter n (putBit (s.counter n) 63 true)).gridComplete n
  live.foldl (fun s e => s.abortOne e.1 31 cause e.2.csr.faddr.toNat) s1

/-! ## Taking an exception (R329) -/

/-- Entry 255 of the fragment table of a task's plot (R259). -/
def State.handlerEntry (s : State) (t : Task) : Option Word :=
  let e := (s.plot t.plot).active.word (0x43200 + 8 * 255)
  if e.getLsbD 63 then some (BitVec.ofNat 64 (getBits e 0 56)) else none

/-- Whether paired stores still wait in the queues of a task: an address and a data entry at least. -/
def Queues.pairWaits (q : Queues) : Bool := !q.pairedData.isEmpty

/-- The bytes of queue state that a trap entry moves (DEDUCED, log entry 11). -/
def Queues.frameBytes (q : Queues) : Nat :=
  8 * (q.loads.length + q.stores.length) +
    (q.ldata.map (fun e => if e.vec then 128 else 8)).foldl (· + ·) 0 +
    (q.sdata.map (fun e => if e.vec then 128 else 8)).foldl (· + ·) 0

/-- The cycles of a trap entry: 12, and one for each 64 bytes of queue state moved. -/
def Queues.entryCycles (q : Queues) : Nat := 12 + ceilDiv q.frameBytes 64

/-- Queues with the four access queues empty; a read under way in the fabric is made again later (R333); bytes of the
constant range stay as they were at issue (R255), and so does what the stream unit waits for. -/
def Queues.emptied (q : Queues) : Queues :=
  { q with loads := [], ldata := [], stores := [], sdata := [], gets := q.gets.filter (fun g => 2 ^ 53 ≤ g.pa), parked := q.parked.filter (fun e => 2 ^ 60 ≤ e.1) }

/-- The frame that a trap entry writes (R329). -/
def Task.frameOf (t : Task) (pc : Word) (since : Nat) : Frame where
  pc := pc
  tsw := t.csr.tsw
  s := Vector.ofFn (fun (i : Fin 6) => t.regs.getS (48 + i.val))
  p7 := t.regs.getP 7
  loopc := t.csr.loopc
  loopStart := t.flow.loopStart
  hold := t.flow.hold
  loads := t.q.loads
  ldata := t.q.ldata
  stores := t.q.stores
  sdata := t.q.sdata
  since := since

/-- Bytes brought to a length. -/
def padTo (n : Nat) (bs : List Byte) : List Byte := (bs ++ List.replicate n 0).take n

/-- The trap frame in the save area, 0x3A80 to 0x3BFF (R329, R335): the places inside are the model's (DESIGN CHOICE, log
entry 10). -/
def Frame.words (f : Frame) : List Byte :=
  let hold : List Word := f.hold.toList.flatMap (fun (h : Hold) => [h.word, if h.valid then 1 else 0])
  let ws : List Word := [f.pc, f.tsw] ++ f.s.toList ++ [if f.p7 then 1 else 0] ++ f.loopc.toList ++ f.loopStart.toList ++ hold
  padTo 0x180 (ws.flatMap (fun w => toLe 8 w.toNat))

/-- The address of an entry of the store-address queue. -/
def StoreAcc.addr (e : StoreAcc) : Word :=
  match e with
  | .sta _ va .. => va
  | .marker _ _ _ va .. => va

/-- Queue state in the save area, 0x3C00 to 0x5EFF (R329, R335, R381): load data, which a yield keeps, then store data and the
addresses; the places inside are the model's (DESIGN CHOICE, log entry 10). -/
def queueWords (ld : List LoadData) (sd : List StoreData) (la sa : List Word) : List Byte :=
  let data (l : List (Option Vec)) : List Byte := padTo 0x1000 (l.flatMap (fun d => toLe 128 (d.elim 0 BitVec.toNat)))
  data (ld.map (·.data)) ++ data (sd.map (·.data)) ++ padTo 0x100 (la.flatMap (fun a => toLe 8 a.toNat)) ++
    padTo 0x200 (sa.flatMap (fun a => toLe 8 a.toNat))

/-- The frame of a task written to its save area, where it has one (R329, R335). -/
def State.writeFrame (s : State) (ctx : Nat) (f : Frame) : State :=
  let a := s.saveBase ctx
  if a = 0 then s
  else s.store (a + 0x3A80)
    (f.words ++ queueWords f.ldata f.sdata (f.loads.map (·.va)) (f.stores.map StoreAcc.addr))

/-- The task as a trap entry leaves it: frame saved, queues empty, hold state clear, in its handler, status written,
PL at least 1, pc at the handler (R329). -/
def Task.enter (t : Task) (r : TrapReq) (entry : Word) (since : Nat) : Task :=
  { t with
    phase := .ready
    pc := entry
    q := t.q.emptied
    csr := { t.csr with
      tsw := putBits (putBits (putBits t.csr.tsw 11 5 r.code) 0 4 r.slot) 4 2 (max t.pl 1)
      fsyl := r.fsyl.getD t.csr.fsyl
      faddr := match r.faddr with
        | some a => BitVec.ofNat 64 (getBits a 0 56)
        | none => t.csr.faddr }
    flow := { t.flow with
      hold := noHold
      inHandler := true
      frame := t.frameOf r.pc since
      trap := none
      resume := 0
      again := false } }

/-- The entry of a handler once no paired store waits: it holds the issue stage (R329). -/
def State.finishTrap (s : State) (uid now : Nat) : State :=
  match s.task? uid with
  | none => s
  | some t =>
    match t.flow.trap, s.handlerEntry t with
    | some r, some e =>
      let n := t.q.entryCycles
      let x := s.tiller t.tiller
      let u := t.enter r e s.fresh
      (((s.writeFrame t.no u.flow.frame).setTask uid (u.count n)).mint).setTiller t.tiller
        { x with freeAt := max x.freeAt (now + n) }
    | _, _ => s

/-- A fault of the Handler kind at a task, taken at cycle `now` (R327, R329): issue stops, and results in flight enter the
latches with their offsets from the cycle `first`, in which the bundle was issued (R69, R331); delivered when entry 255 is
valid and the task is not in its handler, else the task ends Aborted with CAUSE 0 or 7 (R328). -/
def State.trapFrom (s : State) (uid : Nat) (r : TrapReq) (first now : Nat) : State :=
  match s.task? uid with
  | none => s
  | some t =>
    let addr := (r.faddr.getD t.csr.faddr).toNat
    if t.flow.inHandler then s.abortGang uid r.code 7 addr
    else if (s.handlerEntry t).isNone then s.abortGang uid r.code 0 addr
    else
      let t1 := t.freeze first
      let s1 := s.setTask uid { t1 with phase := .trapping, flow := { t1.flow with trap := some r, resume := 0, again := false } }
      if t1.q.pairWaits then s1 else s1.finishTrap uid now

/-- The same between two bundles. -/
def State.trapTask (s : State) (uid : Nat) (r : TrapReq) (now : Nat) : State := s.trapFrom uid r now now

/-- Units charged ahead given back where a bundle splits: it is charged for the slots before SRES alone (R288). A yield that a
pre-emption has asked for meanwhile stays. -/
def Task.unpaid (t : Task) (a : Ahead) : Task :=
  let keep : Word := if t.csr.tsw.getLsbD 9 then 0x40 else 0
  { t with
    csr := { t.csr with
      bi := addUnits t.csr.bi a.tookBi
      bm := addUnits t.csr.bm a.tookBm
      tsw := t.csr.tsw &&& ~~~(a.bits &&& ~~~keep) }
    job := { (t.job.bump 3 (2 ^ 64 - a.bi)).bump 4 (2 ^ 64 - a.bm) with dues :=
      { t.job.dues with bi := t.job.dues.bi - (a.bi - a.tookBi), bm := t.job.dues.bm - (a.bm - a.tookBm) } } }

/-- The bundle on the stage without its charges ahead. -/
def State.refund (s : State) : State :=
  let a := s.stage.ahead
  if a = Ahead.zero then s
  else
    let s1 := s.onCur (fun t => t.unpaid a)
    { s1 with stage := { s1.stage with ahead := Ahead.zero } }

/-- A synchronous fault at the slot on the stage, `k` cycles behind the one in which the slot issued: the slots before it
have committed (R68), and the re-entered bundle reads what it would have read without the fault (R69). A bundle that has kept
the stage has been on it until now, and its results under way have as many cycles left as at any other stop (R331). -/
def State.faultAfter (s : State) (k code : Nat) (syl : Word) (va : Option Word) : State :=
  let g := s.stage
  let ran := s.cycle - g.cycle
  let first := g.cycle + ran
  let now := first + (if ran = 0 && g.second then 1 else 0) + k
  let s0 := s.refund
  let s1 := if ran + k = 0 then s0 else s0.onCur (fun t => t.count (ran + k))
  let s2 := s1.trapFrom g.uid ⟨code, g.slot, s.cur.pc, some syl, va⟩ first now
  { s2 with stage := { s2.stage with halt := .stopped } }

/-- A synchronous fault at the slot on the stage. -/
def State.takeFault (s : State) (code : Nat) (syl : Word) (va : Option Word) : State := s.faultAfter 0 code syl va

/-! ## Return from a handler (R333) -/

/-- What a handler's own queues leave behind: loads and stores are done or discarded, markers still waiting stay. -/
def Queues.keepMarkers (q : Queues) : List LoadAcc × List StoreAcc :=
  (q.loads.filter (fun a => match a.kind with | .marker _ => true | _ => false),
   q.stores.filter (fun a => match a with | .marker .. => true | _ => false))

/-- The registers s48 to s53 and p7 of a frame restored; none of them has an outstanding producer then (R80). -/
def Task.restoreRegs (t : Task) : Task :=
  let f := t.flow.frame
  let r := (List.range 6).foldl (fun (r : Regs) i => r.setS (48 + i) (f.s.getD i 0)) t.regs
  { t with regs := r.setP 7 f.p7 }

/-- RETT (R333): the frame restored, PL as saved, queues with the frame's entries behind what is left of the
handler's, and the bundle re-entered at SRES. -/
def Task.leaveHandler (t0 : Task) : Task :=
  let t := t0.restoreRegs
  let f := t.flow.frame
  let k := t.q.keepMarkers
  { t with
    pc := f.pc
    q := { t.q with loads := k.1 ++ f.loads, ldata := f.ldata, stores := k.2 ++ f.stores, sdata := f.sdata }
    csr := { t.csr with loopc := f.loopc, tsw := putBits t.csr.tsw 4 2 (tswPl f.tsw) }
    flow := { t.flow with
      loopStart := f.loopStart
      hold := f.hold
      inHandler := false
      frame := Frame.zero
      resume := tswSres t.csr.tsw
      again := true } }

end Sys2Proof.Machine
end

