-- ==== Sys2Proof/Machine/Engines.lean ====
section
/-! DEFINITION. Operations that the engines share: their accesses (R164, R214), the order behind the task's own accesses
(R166, R217), leases of the Acre (R148 to R152) and command errors (R164, R244). -/

namespace Sys2Proof.Machine

/-! ## Order behind a task's accesses -/

/-- Whether every access of a task numbered below `seq` has performed at task scope (R228). -/
def Task.performedBelow (t : Task) (seq : Nat) : Bool :=
  let st (e : StoreAcc) : Bool := match e with
    | .sta n .. => n < seq
    | .marker _ n .. => n < seq
  !(t.q.loads.any (·.seq < seq) || t.q.stores.any st || t.flow.frame.loads.any (·.seq < seq) || t.flow.frame.stores.any st)

/-- Whether every access of a task numbered below `seq` has performed at plot scope (R166, R217). -/
def Task.homeBelow (t : Task) (seq : Nat) : Bool :=
  t.performedBelow seq && !t.q.buffer.any (fun p => p.seqs.any (·.1 ≤ seq))

/-! ## Engine accesses -/

/-- The cause of the fault record that ends an engine's access behind the fabric, where that is its answer: `ext` then holds
a cell at 2^60 + cause (R354). -/
def refusedBy (ext : List Host.Cell) : Option Nat := (ext.find? (fun c => 2 ^ 60 ≤ c.1)).map (fun c => c.1 - 2 ^ 60)

/-- A piece behind the fabric that ends in a fault record, with its cause: it ended while it was held, no path serves it, or its
answer is one (R346, R354). -/
def State.lostPiece (s : State) (ext : List Host.Cell) (ps : List Piece) : Option (Nat × Nat) :=
  ps.findSome? (fun p =>
    if s.far p then
      (lineParts p).findSome? (fun l =>
        match s.fab.gone.find? (fun e => e.1 == l.pa / 64), s.pathTo l.pa with
        | some e, _ => some (l.pa, e.2)
        | none, .error c => some (l.pa, c)
        | none, .ok _ => (refusedBy ext).map (fun c => (l.pa, c)))
    else none)

/-- Whether the part of a piece in one line is held at the admission point of its group (R346, R348, R351). -/
def State.heldLine (s : State) (p : Piece) : Bool :=
  !s.fab.gone.any (fun e => e.1 == p.pa / 64) && (match s.pathTo p.pa with | .ok (_, held) => held | .error _ => false)

/-- The record of an access that ended while it was held taken note of. -/
def State.ungone (s : State) (pa : Nat) : State :=
  { s with fab := { s.fab with gone := s.fab.gone.eraseP (fun e => e.1 == pa / 64) } }

/-- Whether a piece is held at the admission point of a group. -/
def State.heldPiece (s : State) (p : Piece) : Bool := s.far p && (lineParts p).any s.heldLine

/-- An engine's access that is held stands at the admission point, where what ends such requests ends it too (R345, R346). -/
def State.noteHeld (s : State) (va : Word) (ps : List Piece) : State :=
  match ((ps.filter s.far).flatMap lineParts).find? s.heldLine with
  | none => s
  | some p =>
    if s.fab.reqs.any (fun r => r.purpose == .hold && r.addr == p.pa && r.va == va) then s
    else
      match s.pathTo p.pa with
      | .ok (g, true) => s.request .hold va p.pa (.read p.len) p.pol g true
      | _ => s

/-- The same for an access of a maker at an address, as far as it is mapped. -/
def State.holdAt (s : State) (w : Who) (va : Nat) : State :=
  match s.checkAccess w .read va 1 with
  | .error _ => s
  | .ok c => s.noteHeld (BitVec.ofNat 64 va) c.pieces

/-- What an engine operation answers in place of a fault code while an access of it is held at an admission point, or a read of
it waits for an empty sync line: the engine waits, and the operation is made again (R214, R346). -/
def heldCode : Nat := 0

/-- The first line of an engine's access that fails: the code, and its offset in the access. A sync page fails unless
`fe` allows it (R185). -/
def State.engFailIn (s : State) (ext : List Host.Cell) (fe : Bool) : Nat → List Piece → Option (Nat × Nat)
  | _, [] => none
  | off, p :: ps =>
    if !fe && p.fe then some (13, off)
    else if s.heldPiece p then some (heldCode, off)
    else if (s.lostPiece ext [p]).isSome then some (16, off)
    else s.engFailIn ext fe (off + p.len) ps

/-- The same of an access in pieces; where none of it is far, each whole piece is looked at. -/
def State.engFail (s : State) (ext : List Host.Cell) (fe : Bool) (off : Nat) (ps : List Piece) : Option (Nat × Nat) :=
  s.engFailIn ext fe off (if ps.any s.far then ps.flatMap lineParts else ps)

/-- The maker of an engine's accesses for a task. -/
def Task.engine (t : Task) (pl : Nat) : Who := { plot := t.plot, tenant := t.tenant, pl := pl }

/-- An engine read: the bytes, and the machine with its translations cached and lines looked up; or the fault code and
the failing address. Sync pages are refused unless `fe` allows them (R185). -/
def State.engRead (s : State) (w : Who) (ext : List Host.Cell) (va : Word) (len : Nat) (fe : Bool := false) :
    Except (Nat × Nat) (List Byte × State) :=
  if len = 0 then .ok ([], s)
  else
    match s.checkAccess w .read va.toNat len with
    | .error e => .error e
    | .ok c =>
      match s.engFail ext fe 0 c.pieces with
      | some (code, off) => .error (code, va.toNat + off)
      | none =>
        if !s.piecesFull c.pieces then .error (heldCode, va.toNat)
        else .ok (s.readPieces ext c.pieces, (s.cacheWalks w c).touch c.pieces)

/-- An engine write resolved; sync pages are refused unless `fe` allows them (R185). -/
def State.engTarget (s : State) (w : Who) (ext : List Host.Cell) (fe : Bool) (va : Word) (len : Nat) :
    Except (Nat × Nat) (List Piece × State) :=
  if len = 0 then .ok ([], s)
  else
    match s.checkAccess w .write va.toNat len with
    | .error e => .error e
    | .ok c =>
      match s.engFail ext fe 0 c.pieces with
      | some (code, off) => .error (code, va.toNat + off)
      | none => .ok (c.pieces, s.cacheWalks w c)

/-- Reads made one after the other. -/
def State.engReads (s : State) (w : Who) (ext : List Host.Cell) :
    List (Word × Nat) → Except (Nat × Nat) (List (List Byte) × State)
  | [] => .ok ([], s)
  | (va, len) :: rest =>
    match s.engRead w ext va len with
    | .error e => .error e
    | .ok (bs, s1) =>
      match s1.engReads w ext rest with
      | .error e => .error e
      | .ok (all, s2) => .ok (bs :: all, s2)

/-- A resolved write of an engine. -/
structure EngWrite where
  va : Word
  pieces : List Piece
  bytes : List Byte
deriving DecidableEq, Repr

/-- Writes resolved one after the other, with the bytes for each. -/
def State.engTargets (s : State) (w : Who) (ext : List Host.Cell) (fe : Bool) :
    List (Word × List Byte) → Except (Nat × Nat) (List EngWrite × State)
  | [] => .ok ([], s)
  | (va, bs) :: rest =>
    match s.engTarget w ext fe va bs.length with
    | .error e => .error e
    | .ok (ps, s1) =>
      match s1.engTargets w ext fe rest with
      | .error e => .error e
      | .ok (all, s2) => .ok (⟨va, ps, bs⟩ :: all, s2)

/-- Resolved writes made; lines of sync pages turn full (R185). What lies behind the fabric leaves in requests that name context
`src` where one fails. -/
def State.engWrite (s : State) (src : Nat) (ws : List EngWrite) : State :=
  ws.foldl (fun s e => (s.writePieces (.engine src) e.va e.pieces e.bytes).fillPieces e.pieces) s

/-- A word that announces a result to a task written in one action with its full bit; where it fails behind the fabric the task
takes a late-access fault (R218, R251, R252). -/
def State.announce (s : State) (uid : Nat) (va : Word) (ps : List Piece) (w : Word) : State :=
  (s.writePieces (.form uid false) va ps (toLe 8 w.toNat)).fillPieces ps

/-- What an engine's operation comes to: the machine behind it, or the access of it that is held at an admission point, which
stands there, or waits for a line (R214, R346). -/
def State.orHeld (s : State) (r : Except (Who × Nat) State) : State :=
  match r with
  | .ok s1 => s1
  | .error e => s.holdAt e.1 e.2

/-- The log of the fault record that ended an engine's access (R354): the cause in the serving group's record. -/
def State.logLost (s : State) (w : Who) (ext : List Host.Cell) (src code va : Nat) : State :=
  if code != 16 then s
  else
    match s.checkAccess w .read va 1 with
    | .error _ => s
    | .ok c =>
      match s.lostPiece ext c.pieces with
      | none => s
      | some (pa, cause) => (s.logError (0x500400 + 0x20 * s.recordGroup pa) cause src (BitVec.ofNat 64 pa)).ungone pa

/-- The doubleword at an offset of bytes. -/
def wordAt (bs : List Byte) (off : Nat) : Word := BitVec.ofNat 64 (leNat ((bs.drop off).take 8))

/-! ## Work of a task in the engines (R113) -/

/-- A task's request outstanding in an engine. -/
def Task.begin (t : Task) (id : Nat) : Task := { t with job := { t.job with work := t.job.work ++ [id] } }

/-- A request done. -/
def Task.done (t : Task) (id : Nat) : Task := { t with job := { t.job with work := t.job.work.filter (· != id) } }

/-! ## Leases (R148 to R152) -/

/-- The lease that a task holds, with its entry; a releasing one is held no more (R152). -/
def Plot.leaseOf (p : Plot) (uid : Nat) : Option (Nat × Lease) :=
  p.leases.find? (fun e => e.2.holder.is uid && !e.2.releasing)

/-- Whether a released entry of the holder still drains (R152). -/
def Plot.drains (p : Plot) (h : Holder) : Bool := p.leases.any (fun e => e.2.holder == h && e.2.releasing)

/-- Whether a task has a request that waits. -/
def Plot.requests (p : Plot) (uid : Nat) : Bool := p.waiting.any (·.holder.is uid)

/-- The first free entry of the lease table. -/
def Plot.freeEntry (p : Plot) : Option Nat := (List.range 8).find? (fun e => (Tab.get? p.leases e).isNone)

/-- A request put in its place: by priority, then age (R151). -/
def insertReq (r : LeaseReq) : List LeaseReq → List LeaseReq
  | [] => [r]
  | q :: qs => if q.prio < r.prio then r :: q :: qs else q :: insertReq r qs

/-- An entry taken by a request's holder. -/
def Plot.grant (p : Plot) (entry : Nat) (r : LeaseReq) (ops : OperandState) (err : Option CmdErr) (pending : Bool) : Plot :=
  { p with
    leases := Tab.set p.leases entry
      { holder := r.holder, prio := r.prio, ops := ops, cmds := [], err := err, releasing := false, pending := pending,
        token := r.token }
    waiting := p.waiting.filter (fun q => q.holder != r.holder) }

/-- A lease given to a task, unbound or as saved at a yield, or to a Gleaner (R151, R168, R270). -/
def State.giveLease (s : State) (plot entry : Nat) (r : LeaseReq) : State :=
  let p := s.plot plot
  match r.holder with
  | .gleaner _ => s.setPlot plot (p.grant entry r OperandState.zero none false)
  | .task uid =>
    match s.task? uid with
    | none => s
    | some t =>
      let ops := match t.job.lease with | some l => l.1 | none => OperandState.zero
      let err := match t.job.lease with | some l => l.2 | none => none
      (s.setPlot plot (p.grant entry r ops err t.job.lease.isNone)).onTask uid
        (fun t => { t with job := { t.job with lease := none, issueKoff := ops.koff } })

/-- The request whose turn it is, where an entry is free (R151). -/
def State.grantNext (s : State) (plot : Nat) : State :=
  let p := s.plot plot
  match p.freeEntry, p.waiting.find? (fun r => !p.drains r.holder) with
  | some e, some r => s.giveLease plot e r
  | _, _ => s

/-- A lease-table entry becomes free; an error that nothing has raised stays with the task (R152, R164). -/
def State.freeLease (s : State) (plot entry : Nat) : State :=
  let p := s.plot plot
  match Tab.get? p.leases entry with
  | none => s
  | some l =>
    let s1 := s.setPlot plot { p with
      leases := Tab.erase p.leases entry
      running := if p.running = some entry then none else p.running
      began := if p.running = some entry then none else p.began }
    let s2 := match l.holder, l.err with
      | .task uid, some e => s1.onTask uid (fun t =>
          { t with job := { t.job with acreErr := some (t.job.acreErr.getD e) } })
      | _, _ => s1
    s2.grantNext plot

/-- K of a shape word (R157). -/
def shapeK (w : Word) : Nat := getBits w 0 13

/-- The step that a command adds to KOFF (R158, R161). -/
def AcreCmd.step (c : AcreCmd) : Nat :=
  if 0x020 ≤ c.opc && c.opc ≤ 0x023 && c.d % 2 = 1 then shapeK c.x
  else if c.opc = 0x034 && c.d / 2 % 2 = 1 then shapeK c.x
  else 0

/-- Data of an `amove` on its way to its register. -/
def Task.moved (t : Task) (id : Nat) (v : Vec) (tag : Tag) : Task :=
  let f (p : Producer) : Producer := if p.id = id then { p with data := some (v, tag) } else p
  { t with flow := { t.flow with producers := t.flow.producers.map f } }

/-- The queued commands of a lease discarded: steps count, an `amove` delivers zeros with tag raw (R164). A binding among
them does not bind, and issue tags and the issue KOFF stay as the issues set them (DESIGN CHOICE, log entry 50). -/
def State.discardCmds (s : State) (plot entry : Nat) : State :=
  let p := s.plot plot
  match Tab.get? p.leases entry with
  | none => s
  | some l =>
    let ops : OperandState := { l.ops with koff := l.cmds.foldl (fun k c => k + c.step) l.ops.koff }
    let s1 := s.setPlot plot { p with
      leases := Tab.set p.leases entry { l with cmds := [], ops := ops }
      running := if p.running = some entry then none else p.running
      began := if p.running = some entry then none else p.began }
    match l.holder with
    | .gleaner _ => s1
    | .task uid =>
      l.cmds.foldl (fun s c => s.onTask uid (fun t => if c.opc = 0x032 then t.moved c.id 0 0 else t)) s1

/-- The pending command error of a task (R164). -/
def State.acreError (s : State) (uid : Nat) : Option CmdErr :=
  match s.task? uid with
  | none => none
  | some t =>
    match t.job.acreErr with
    | some e => some e
    | none => (s.plot t.plot).leases.findSome? (fun e => if e.2.holder.is uid then e.2.err else none)

/-- The commands of a task that are queued, running or on their way to a register (R165). -/
def State.acreOutstanding (s : State) (uid : Nat) : Nat :=
  match s.task? uid with
  | none => 0
  | some t =>
    ((s.plot t.plot).leases.map (fun e => if e.2.holder.is uid then e.2.cmds.length else 0)).foldl (· + ·) 0 +
      (t.flow.producers.filter (fun p => p.kind == .amove && p.data.isSome)).length

/-- The error raised: its record clears, and what is still queued behind it is discarded (R164). -/
def State.clearAcreError (s : State) (uid : Nat) : State :=
  match s.task? uid with
  | none => s
  | some t =>
    let es := ((s.plot t.plot).leases.filter (fun e => e.2.holder.is uid && e.2.err.isSome)).map (·.1)
    let s1 := es.foldl (fun s e => s.discardCmds t.plot e) s
    let p := s1.plot t.plot
    let p' := { p with leases := Tab.mapVal p.leases (fun _ l => if l.holder.is uid then { l with err := none } else l) }
    (s1.setPlot t.plot p').onTask uid (fun t => { t with job := { t.job with acreErr := none } })

/-! ## Errors of completion maps (R231, R244) -/

/-- A map of a tiller. -/
def Tiller.map (x : Tiller) (n : Nat) : CMap := Tab.getD x.maps n CMap.zero

/-- A map written. -/
def Tiller.setMap (x : Tiller) (n : Nat) (m : CMap) : Tiller := { x with maps := Tab.set x.maps n m }

/-- The error of a map raised: its record clears (R244). -/
def State.clearMapError (s : State) (tl n : Nat) : State :=
  let x := s.tiller tl
  s.setTiller tl (x.setMap n { x.map n with err := none })

end Sys2Proof.Machine
end

