-- ==== Sys2Proof/Machine/Operands.lean ====
section
/-! DEFINITION. Operand forms: the issue check (R61, R80), reading sources with their pops and stream reads (R63, R64),
writing results (R64, R82), and the frame of every syllable: guard, check, charge, hold state (R57 to R68). -/

namespace Sys2Proof.Machine

/-! ## The issue check (R61, R80, R331) -/

/-- What the syllables of a bundle visited so far pop, push and start. -/
structure Need where
  pops : Nat
  loads : Nat
  ldata : Nat
  stores : Nat
  sdata : Nat
  results : Nat
  reads : List Nat
  writes : List Nat
deriving DecidableEq, Repr

/-- Nothing visited yet. -/
def Need.zero : Need := ⟨0, 0, 0, 0, 0, 0, [], []⟩

/-- The stream that a register belongs to, bound in the direction asked for (R63, R227): `s56+q` or `v56+q`. A write to a
register bound as an input, and a read of one bound as an output, is an access of the register itself (DESIGN CHOICE, log
entry 48). -/
def Task.streamAt (t : Task) (n : Nat) (out : Bool) : Option (Nat × Stream) :=
  let q := n % 64 - 56
  if n % 64 < 56 then none
  else (Tab.get? t.q.streams q).bind (fun st => if st.vec == (64 ≤ n) && st.out == out then some (q, st) else none)

/-- The number of elements of a stream (R227). -/
def Stream.total (st : Stream) : Nat := st.count1 * st.count2

/-- A source register: full, its queue or stream filled as far as the bundle reads it. -/
def Task.checkSource (t : Task) (marked : List Nat) (fem : Bool) (n : Nat) (w : Need) : Except Stop Need :=
  let no (why : Awaits) : Except Stop Need := if fem then .error (.fault 3 none) else .error (.block why)
  if n = 55 || n = 119 then
    match t.q.ldata[w.pops]? with
    | some e => if e.data.isSome then .ok { w with pops := w.pops + 1 } else no .loads
    | none => no .loads
  else
    match t.streamAt n false with
    | some (q, st) =>
      let i := w.reads.count n
      if st.buf.length ≤ i && st.next + i < st.total then no (.stream q)
      else .ok { w with reads := n :: w.reads }
    | none => if t.regs.fullReg n || marked.contains n then .ok w else no (.reg n)

/-- The n-th store address of the queue. -/
def nthSta : List StoreAcc → Nat → Option StoreAcc
  | [], _ => none
  | .sta a b c d e f g :: rest, n => if n = 0 then some (.sta a b c d e f g) else nthSta rest (n - 1)
  | .marker .. :: rest, n => nthSta rest n

/-- The n-th store address replaced. -/
def setNthSta : List StoreAcc → Nat → StoreAcc → List StoreAcc
  | [], _, _ => []
  | .sta a b c d e f g :: rest, n, y => if n = 0 then y :: rest else .sta a b c d e f g :: setNthSta rest (n - 1) y
  | .marker a b c d e f g :: rest, n, y => .marker a b c d e f g :: setNthSta rest n y

/-- Whether an invalidation that the task issued has not reached its plot (R208). -/
def Task.invalidating (t : Task) : Bool :=
  t.q.stores.any (fun e => match e with | .marker _ _ _ _ _ (.tlbinv ..) _ => true | _ => false)

/-- Whether a register has an outstanding producer: one of two dividers of a bundle may have filled it already (R80, R95). -/
def Task.pending (t : Task) (n : Nat) : Bool := t.flow.producers.any (fun p => p.elem.isNone && p.reg == n)

/-- A destination register: room in its queue or stream, and no outstanding producer (R80). Vector data that completes a pair
translates its address, and so waits for the task's own invalidation (R196, R208). -/
def Task.checkDest (t : Task) (marked : List Nat) (counts : Bool) (n : Nat) (w : Need) : Except Stop Need :=
  let r := if counts && n != 0 then w.results + 1 else w.results
  if n = 54 || n = 118 then
    if 32 ≤ t.q.sdata.length + w.sdata then .error (.block .storeData)
    else if n == 118 && t.invalidating && (nthSta t.q.stores (t.q.sdata.length + w.sdata)).isSome then
      .error (.block .transCache)
    else .ok { w with sdata := w.sdata + 1, results := r }
  else
    match t.streamAt n true with
    | some (q, st) =>
      if st.next + w.writes.count n < st.total && 16 ≤ st.buf.length + w.writes.count n then .error (.block (.stream q))
      else .ok { w with writes := n :: w.writes, results := r }
    | none =>
      if (t.regs.fullReg n && !t.pending n) || marked.contains n then .ok { w with results := r } else .error (.block (.reg n))

/-- Whether a kind is a destination of R62 in an `s` or `v` register. -/
def isDest : Kind → Bool
  | .dS | .dO | .dR | .dV => true
  | _ => false

/-- Whether a kind is a source register. -/
def isSource : Kind → Bool
  | .sS | .sV | .eS | .eV | .eX => true
  | _ => false

/-- Whether a form starts a result with exposed latency: the producers of R79 and the forms that deliver from memory do
not (R331). -/
def startsResult (c : Cls) (opc : Nat) : Bool :=
  match c with
  | .A => opc == 0x001
  | .S => !(0x010 ≤ opc && opc ≤ 0x013)
  | .V => true
  | .M => 0x050 ≤ opc && opc ≤ 0x052
  | .C => true

/-- Pushes of a form: load addresses, load-data entries, store addresses (R192, R225). -/
def pushesOf (c : Cls) (opc : Nat) : Nat × Nat × Nat :=
  match c with
  | .A =>
    if opc = 0x010 || opc = 0x011 then (1, 1, 0)
    else if opc = 0x012 then (0, 0, 1)
    else if opc = 0x015 then (1, 0, 0)
    else if opc = 0x013 || (0x020 ≤ opc && opc ≤ 0x033) || (0x050 ≤ opc && opc ≤ 0x052) || opc = 0x060 then (1, 0, 1)
    else (0, 0, 0)
  | _ => (0, 0, 0)

/-- The queues that a form pushes have room (R61, R225). -/
def Task.checkPushes (t : Task) (p : Nat × Nat × Nat) (w : Need) : Except Stop Need :=
  let w' := { w with loads := w.loads + p.1, ldata := w.ldata + p.2.1, stores := w.stores + p.2.2 }
  if p.1 != 0 && 32 < t.q.loads.length + w'.loads then .error (.block .loads)
  else if p.2.1 != 0 && 32 < t.q.ldata.length + w'.ldata then .error (.block .loadData)
  else if p.2.2 != 0 && 32 < t.q.stores.length + w'.stores then .error (.block .storeAddr)
  else .ok w'

/-- The visit of one field: a destination before the sources. -/
def Task.checkField (t : Task) (marked : List Nat) (x : Syl) (j : Nat) (f : Kind) (w : Need) : Except Stop Need :=
  if isSource f && !(j == 4 && x.lit) then t.checkSource marked (x.fem.getLsbD j) (x.field j).toNat w else .ok w

/-- The fields that a form writes. -/
def Task.checkWrites (t : Task) (marked : List Nat) (x : Syl) (ks : List Kind) (counts : Bool) (w : Need) :
    Except Stop Need :=
  match (match ks.getD 0 .z with
    | .dS | .dO | .dR | .dV => t.checkDest marked counts x.a.toNat w
    | .p | .k => .ok (if counts && x.a != 0 then { w with results := w.results + 1 } else w)
    | _ => .ok w) with
  | .error e => .error e
  | .ok w1 =>
    if isDest (ks.getD 3 .z) then t.checkDest marked counts x.d.toNat w1
    else if isDest (ks.getD 4 .z) then t.checkDest marked counts x.e.toNat w1
    else .ok w1

/-- A third result beside the fields: the mask that vcompress writes (R137). -/
def Need.extra (c : Cls) (opc : Nat) (x : Syl) (w : Need) : Need :=
  if c == .V && opc == 0x088 && x.c != 0 then { w with results := w.results + 1 } else w

/-- The issue check of one syllable of a row with the kinds `ks`, in the visit that has gathered `w`. -/
def Task.issueCheck (t : Task) (marked : List Nat) (c : Cls) (opc : Nat) (ks : List Kind) (x : Syl) (w : Need) :
    Except Stop Need := do
  let w1 ← t.checkWrites marked x ks (startsResult c opc) w
  let w2 ← t.checkField marked x 0 (ks.getD 0 .z) w1
  let w3 ← t.checkField marked x 1 (ks.getD 1 .z) w2
  let w4 ← t.checkField marked x 2 (ks.getD 2 .z) w3
  let w5 ← t.checkField marked x 3 (ks.getD 3 .z) w4
  let w6 ← t.checkField marked x 4 (ks.getD 4 .z) w5
  t.checkPushes (pushesOf c opc) (w6.extra c opc x)

/-! ## Reading operands -/

/-- An operand as read: its bits and its tag. -/
structure Arg where
  v : Vec
  tag : Tag
deriving DecidableEq, Repr

/-- The operands of a syllable by field. -/
structure Args where
  a : Arg
  b : Arg
  c : Arg
  d : Arg
  e : Arg
deriving DecidableEq, Repr

/-- The low word of an operand. -/
def Arg.w (x : Arg) : Word := low x.v

/-- A field that holds no operand. -/
def Arg.none : Arg := ⟨0, 0⟩

/-- A charge that falls due while the bundle keeps the stage: that of an element group (R288). -/
def State.payNow (s : State) (bi bm : Nat) : State :=
  let s1 := s.onCur (fun t => t.charge s.cycle bi bm)
  { s1 with stage := { s1.stage with paid := (s1.stage.paid.1 + bi, s1.stage.paid.2 + bm) } }

/-- What is left of the charges made ahead once a slot has taken its own: a bit of TSW that its units alone would have set
stays. -/
def Ahead.draw (a : Ahead) (bi bm : Nat) : Ahead :=
  let i := 0 < bi && a.tookBi ≤ bi
  let m := 0 < bm && a.tookBm ≤ bm
  ⟨a.bi - bi, a.bm - bm, a.tookBi - bi, a.tookBm - bm,
    putBits a.bits 6 3 (getBits a.bits 6 3 - ((if i || m then getBits a.bits 6 1 else 0) + (if i then 2 * getBits a.bits 7 1 else 0) +
      if m then 4 * getBits a.bits 8 1 else 0))⟩

/-- A charge made by the syllable on the stage, as far as it has not been made ahead. -/
def State.pay (s : State) (bi bm : Nat) : State :=
  let a := s.stage.ahead
  let s1 := s.onCur (fun t => t.charge s.cycle (bi - a.bi) (bm - a.bm))
  { s1 with stage := { s1.stage with paid := (s1.stage.paid.1 + bi, s1.stage.paid.2 + bm), ahead := a.draw bi bm } }

/-- A charge made ahead: the bundle is charged at its issue for slots that commit later (R288). -/
def State.advance (s : State) (bi bm : Nat) : State :=
  let a := s.stage.ahead
  let c := s.cur.csr
  let s1 := s.onCur (fun t => t.charge s.cycle bi bm)
  { s1 with stage := { s1.stage with ahead :=
    ⟨a.bi + bi, a.bm + bm, a.tookBi + min bi (getBits c.bi 0 48), a.tookBm + min bm (getBits c.bm 0 48),
      a.bits ||| ((c.charge bi bm).tsw &&& ~~~c.tsw)⟩ } }

/-- What a form owes that keeps the stage before it takes effect, charged ahead at its first attempt. -/
def State.owe (s : State) (st : Stop) (u : Nat × Nat) : State :=
  match st with
  | .suspend | .held .. => s.advance (u.1 - s.stage.ahead.bi) (u.2 - s.stage.ahead.bm)
  | _ => s

/-- The task on the stage with its register files as they stood at the bundle's first issue cycle (R64). -/
def State.src (s : State) : Task := { s.cur with regs := s.stage.regs }

/-- A source register read: a pop of the load-data queue (R64, R195), the next element of an input stream (R228), or
the register. -/
def State.readReg (s : State) (n : Nat) : Except Stop (Arg × State) :=
  let t := s.cur
  if n = 55 || n = 119 then
    match t.q.ldata with
    | [] => .error (.block .loads)
    | e :: rest =>
      match e.data with
      | none => .error (.block .loads)
      | some v =>
        if e.vec != (n == 119) then .error (.fault 4 none)
        else .ok (⟨v, e.tag⟩, s.onCur (fun t => { t with q := { t.q with ldata := rest } }))
  else
    match t.streamAt n false with
    | some (q, st) =>
      if st.total ≤ st.next then .error (.fault 15 none)
      else
        match st.buf with
        | [] => .error (.block (.stream q))
        | e :: rest =>
          match e.fail, e.data with
          | some (code, va), _ => .error (.fault code (some va))
          | none, none => .error (.block (.stream q))
          | none, some v =>
            let st' : Stream := { st with buf := rest, next := st.next + 1 }
            let s1 := s.onCur (fun t => { t with q := { t.q with streams := Tab.set t.q.streams q st' } })
            .ok (⟨v, if st.vec then BitVec.ofNat 6 st.es else 0⟩, s1.pay 1 (if st.vec then 2 else 1))
    | none =>
      let r := s.stage.regs
      .ok (if n < 64 then ⟨vec (r.getS n), 0⟩ else ⟨r.getV (n - 64), r.getVt (n - 64)⟩, s)

/-- The bundle literal as an S-, A-, M- or C-class syllable receives it (R54). -/
def lit64 (h : Header) : Word := h.lit.signExtend 64

/-- One field read. -/
def State.readField (s : State) (x : Syl) (j : Nat) (f : Kind) : Except Stop (Arg × State) :=
  if isSource f then
    if j == 4 && x.lit then .ok (⟨vec (lit64 s.stage.header), 0⟩, s) else s.readReg (x.field j).toNat
  else .ok (Arg.none, s)

/-- The source fields read in order A to E (R64). -/
def State.readArgs (s : State) (x : Syl) (ks : List Kind) : Except Stop (Args × State) := do
  let a ← s.readField x 0 (ks.getD 0 .z)
  let b ← a.2.readField x 1 (ks.getD 1 .z)
  let c ← b.2.readField x 2 (ks.getD 2 .z)
  let d ← c.2.readField x 3 (ks.getD 3 .z)
  let e ← d.2.readField x 4 (ks.getD 4 .z)
  .ok (⟨a.1, b.1, c.1, d.1, e.1⟩, e.2)

/-! ## Writing results -/

/-- The cycle from which the exposed latencies of the syllable on the stage count (R60, R67). -/
def Stage.base (g : Stage) : Nat := g.cycle + if g.second then 1 else 0

/-- A result started: it lands after its exposed latency. -/
def State.start (s : State) (d : Dest) (lat : Nat) (v : Vec) (tag : Tag) : State :=
  s.onCur (fun t => { t with
    flow := { t.flow with inflight := t.flow.inflight ++ [⟨s.stage.base + lat, d, v, tag⟩] } })

/-- The store addresses of a queue. -/
def countSta (l : List StoreAcc) : Nat := (l.filter (fun e => match e with | .sta .. => true | _ => false)).length

/-- The binding that a store address took along when it was queued, for its turn at a window (R206). -/
def Target.binding : Target → Option Window
  | .window w .. => some w
  | .mem _ => none

/-- A vector address with a completed pair: checked over the bytes of its data's tag (R196), in a window under the binding of
its place in the queue (R206). -/
def State.completePair (s : State) (va : Word) (tgt : Target) (hint : Nat) (tag : Tag) : Except Stop Resolved :=
  let n := regBytes tag.toNat
  match (if inWindow va.toNat then windowAccess tgt.binding .write va.toNat n else s.resolvePlain s.cur .write va.toNat n hint) with
  | .error (c, f) => .error (.fault c (some (BitVec.ofNat 64 f)))
  | .ok r => .ok r

/-- A store-data entry reserved (R64, R196): its kind must match the address that it pairs with, and a vector address is
checked now. -/
def State.reserve (s : State) (vec : Bool) (tag : Tag) : Except Stop State :=
  let t := s.cur
  let entry : StoreData := ⟨s.fresh, vec, tag, none⟩
  let s1 := (s.onCur (fun t => { t with q := { t.q with sdata := t.q.sdata ++ [entry] } })).mint
  match nthSta t.q.stores t.q.sdata.length with
  | none => .ok s1
  | some (.sta seq va tgt isVec size hint entered) =>
    if isVec != vec then .error (.fault 4 none)
    else if vec then
      match s.completePair va tgt hint tag with
      | .error e => .error e
      | .ok r =>
        let a : StoreAcc := .sta seq va r.tgt isVec size hint entered
        .ok ((s1.onCur (fun u => { u with q := { u.q with stores := setNthSta u.q.stores t.q.sdata.length a } })).resolved
          s.stage.uid r)
    else .ok s1
  | some (.marker ..) => .ok s1

/-- A result in a register numbered as in R63: discarded at s0, a store-data entry at 54 and 118, an element at a bound
output stream, else the register. -/
def State.putReg (s : State) (n lat : Nat) (v : Vec) (tag : Tag) : Except Stop State :=
  if n = 0 then .ok s
  else if n = 54 || n = 118 then
    match s.reserve (n == 118) tag with
    | .error e => .error e
    | .ok s1 => .ok (s1.start (.store s.fresh) lat v tag)
  else
    match s.cur.streamAt n true with
    | some (q, st) =>
      if st.total ≤ st.next then .error (.fault 15 none)
      else if st.vec && tag.toNat != st.es then .error (.fault 4 none)
      else
        let st' : Stream := { st with next := st.next + 1, buf := st.buf ++ [⟨s.fresh, none, none⟩] }
        let s1 := s.onCur (fun t => { t with q := { t.q with streams := Tab.set t.q.streams q st' } })
        .ok (((s1.pay 1 (if st.vec then 2 else 1)).mint).start (.stream q s.fresh) lat v tag)
    | none => .ok (s.start (if n < 64 then .s n else .v (n - 64)) lat v tag)

/-- A scalar result. -/
def State.putS (s : State) (n : BitVec 7) (lat : Nat) (w : Word) : Except Stop State := s.putReg n.toNat lat (vec w) 0

/-- A predicate result (R62). -/
def State.putP (s : State) (n : BitVec 7) (lat : Nat) (b : Bool) : State :=
  if n = 0 then s else s.start (.p n.toNat) lat (vec (flag b)) 0

/-- A mask result (R62). -/
def State.putK (s : State) (n : BitVec 7) (lat : Nat) (m : Mask) : State :=
  if n = 0 then s else s.start (.k n.toNat) lat (m.setWidth 1024) 0

/-- A producer started: its register is marked empty in the issue cycle (R79). At s54 it reserves a store-data entry, and at
a bound output stream register it takes an element, instead (R63). -/
def State.produce (s : State) (kind : ProdKind) (reg due : Nat) (val : Word) (tag : Tag) : Except Stop State :=
  if reg = 54 then
    match s.reserve false tag with
    | .error e => .error e
    | .ok s1 =>
      .ok ((s1.onCur (fun t => t.produce ⟨kind, reg, s1.fresh, due, val, some (storeDataQueue, s.fresh), none⟩)).mint)
  else
  match s.cur.streamAt reg true with
  | some (q, st) =>
    if st.total ≤ st.next then .error (.fault 15 none)
    else if st.vec && tag.toNat != st.es then .error (.fault 4 none)
    else
      let st' : Stream := { st with next := st.next + 1, buf := st.buf ++ [⟨s.fresh, none, none⟩] }
      let s1 := s.onCur (fun t => { t with q := { t.q with streams := Tab.set t.q.streams q st' } })
      .ok (((s1.pay 1 (if st.vec then 2 else 1)).onCur
        (fun t => t.produce ⟨kind, reg, s.fresh, due, val, some (q, s.fresh), none⟩)).mint)
  | none =>
    let s1 := (s.onCur (fun t => t.produce ⟨kind, reg, s.fresh, due, val, none, none⟩)).mint
    .ok { s1 with stage := { s1.stage with marked := reg :: s1.stage.marked } }

/-! ## The frame of a syllable -/

/-- The kinds of an opcode's fields. -/
def kindsOf (c : Cls) (opc : Nat) : List Kind :=
  match rowOf c opc with
  | none => []
  | some r => r.kinds

/-- Whether an entry says that a form does not read field `j`: aidx without a list, tlbinv.page, rdcnt of the cycle counter,
harrow without `.blk`, topup of the task's own budget (R154, R207, R263, R299, R300). -/
def unread (c : Cls) (opc : Nat) (x : Syl) (j : Nat) : Bool :=
  match c with
  | .M => opc == 0x010 && j == 4 && x.d.toNat / 32 != 1
  | .A => opc == 0x060 && j == 4 && x.d.toNat % 4 == 0
  | .C =>
    (opc == 0x050 && j == 4 && x.d == 0) || (opc == 0x049 && j == 2 && !x.d.getLsbD 2) ||
      (opc == 0x03A && j == 1 && !x.d.getLsbD 1)
  | _ => false

/-- The kinds of the fields as a syllable reads them. -/
def usedKinds (c : Cls) (opc : Nat) (x : Syl) : List Kind :=
  (kindsOf c opc).zipIdx.map (fun e => if unread c opc x e.2 then .m else e.1)

/-- The cause of a fault record that ends a fetch, logged (R354). -/
def State.logFetch (s : State) (pa cause : Nat) : State :=
  s.logError (0x500400 + 0x20 * s.recordGroup pa) cause s.cur.no (BitVec.ofNat 64 pa)

/-- How the bundle stops at a syllable that does not take effect. -/
def State.stop (s : State) (st : Stop) (syl : Word) : State :=
  match st with
  | .fault c va => s.takeFault c syl va
  | .after k c va => s.faultAfter k c syl va
  | .lost k va pa cause =>
    (s.logFetch pa cause).faultAfter k 2 syl (some va)
  | .block why => { s with stage := { s.stage with halt := .block why } }
  | .stall => { s with stage := { s.stage with halt := .stall } }
  | .suspend => { s with stage := { s.stage with halt := .suspended } }
  | .held va ps => { s.noteHeld va ps with stage := { s.stage with halt := .suspended } }
  | .record c va syl m =>
    (match m with
      | none => s.clearAcreError s.stage.uid
      | some n => s.clearMapError s.cur.tiller n).takeFault c syl (some va)

/-- The active plane of the task on the stage. -/
def State.curPlane (s : State) : Plane := (s.plot s.cur.plot).active

/-- The charge of a form with the override of the active plane (R290). -/
def State.costOf (s : State) (c : Cls) (opc : Nat) (d : Cost) : Cost := s.curPlane.cost c opc d

/-- A guarded-off syllable: its charge and nothing else (R58). -/
def State.guardedOff (s : State) (c : Cls) (opc : Nat) : State :=
  let s1 := s.pay (s.costOf c opc Cost.plain).goff 0
  { s1 with stage := { s1.stage with charged := true } }

/-- An executed syllable: its slot's hold state (R65), and the bundle counts as charged. -/
def State.commit (s : State) (x : Syl) (syl : Word) : State :=
  let j := s.stage.slot
  let h : Hold := if x.hold then ⟨true, syl⟩ else ⟨false, 0⟩
  let s1 := s.onCur (fun t => { t with flow := { t.flow with hold := t.flow.hold.setIfInBounds j h } })
  { s1 with stage := { s1.stage with charged := true } }

/-- The issue check of the slot on the stage, alone or as the check of its whole bundle has left it (R61). -/
def State.checkSlot (s : State) (t : Task) (c : Cls) (opc : Nat) (x : Syl) : Except Stop Need :=
  if s.stage.checked then (if s.stage.doomed = some s.stage.slot then .error (.fault 3 none) else .ok Need.zero)
  else t.issueCheck s.stage.marked c opc (usedKinds c opc x) x Need.zero

/-- What a syllable of a class and opcode does: guard (R57, R58), issue check, the form's own wait, operands, charge in
BI and BM units, effect, hold state. A form that does not take effect leaves everything as it was before its slot (R68).
Where the bundle has been checked as a whole, the slots are not checked again. -/
def runUnits (c : Cls) (opc : Nat) (x : Syl) (wait : Args → State → Option Stop) (units : Args → State → Nat × Nat)
    (act : Args → State → Except Stop State) (s : State) : Host.Outcome State Fault Refusal :=
  let syl := pack (BitVec.ofNat 10 opc) x
  match s.task? s.stage.uid with
  | none => .next s
  | some t =>
    if !s.stage.regs.guard x then .next (s.guardedOff c opc)
    else
      match s.checkSlot t c opc x with
      | .error st => .next (s.stop st syl)
      | .ok _ =>
        match s.readArgs x (usedKinds c opc x) with
        | .error st => .next (s.stop st syl)
        | .ok (args, s1) =>
          match (if s.stage.checked then none else wait args s) with
          | some st => .next (s.stop st syl)
          | none =>
            match act args (s1.pay (units args s1).1 (units args s1).2) with
            | .error st => .next ((s.owe st (units args s1)).stop st syl)
            | .ok s2 => .next (s2.commit x syl)

/-- The same with a charge of the parts of R287, overridden as the active plane says (R290). -/
def runWait (c : Cls) (opc : Nat) (x : Syl) (wait : Args → State → Option Stop) (cost : Args → State → Cost × Nat)
    (act : Args → State → Except Stop State) (s : State) : Host.Outcome State Fault Refusal :=
  runUnits c opc x wait (fun g s => ((s.costOf c opc (cost g s).1).units, (cost g s).2)) act s

/-- A form that waits for nothing of its own. -/
def noWait : Args → State → Option Stop := fun _ _ => none

/-- A syllable without a wait of its own. -/
def run (c : Cls) (opc : Nat) (x : Syl) (cost : Args → State → Cost × Nat) (act : Args → State → Except Stop State)
    (s : State) : Host.Outcome State Fault Refusal := runWait c opc x noWait cost act s

/-- The charge of a plain form. -/
def plain : Args → State → Cost × Nat := fun _ _ => (Cost.plain, 0)

end Sys2Proof.Machine
end

