-- ==== Sys2Proof/Machine/Access.lean ====
section
/-! DEFINITION. The A class: loads, stores, atomics, sync-word operations, fences, sheaf windows and invalidations
(09_memory_instructions), and the events by which accesses perform (10_consistency). -/

namespace Sys2Proof.Machine

/-! ## Addresses -/

/-- The address of a load or a store (R194). -/
def loadEa (g : Args) (x : Syl) : Word := g.b.w + x.c.signExtend 64

/-- The number of elements that an access of a sheaf window touches, else `d` (R193). -/
def accessBm (s : State) (ea : Word) (len d : Nat) : Nat :=
  let a := ea.toNat
  if windowBase ≤ a && a < windowBase + 16 * 2 ^ 32 then
    match Tab.get? s.cur.q.windows ((a - windowBase) / 2 ^ 32) with
    | some w => max 1 (len / 2 ^ w.log2z)
    | none => d
  else d

/-- The charge of a memory form. -/
def memCost (bm : Nat) : Cost × Nat := (Cost.plain, bm)

/-- The wait of every form that translates an address (R208). -/
def waitTrans (_ : Args) (s : State) : Option Stop :=
  if s.cur.invalidating then some (.block .transCache) else none

/-- An access checked at issue: alignment, then R184; a fault names the address (R190). -/
def State.checked (s : State) (k : Acc) (ea : Word) (len align : Nat) (hint : Nat := 0) : Except Stop Resolved :=
  if ea.toNat % align ≠ 0 then .error (.fault 6 (some ea))
  else
    match s.resolve s.cur k ea len hint with
    | .error (c, va) => .error (.fault c (some (BitVec.ofNat 64 va)))
    | .ok r => .ok r

/-- The access sequence after one push (R203). -/
def Queues.bumpSeq (q : Queues) : Queues := { q with seq := (q.seq + 1) % 2 ^ 48 }

/-- What a load of the constant range reads, which is the plane's at its issue (R255, R256). -/
def State.constGets (s : State) (seq : Nat) (ps : List Piece) : List Get :=
  (ps.filter (fun p => 2 ^ 53 ≤ p.pa)).map (fun p => ⟨seq, 0, p.pa, p.len, some (s.readPiece [] p), []⟩)

/-- A load address pushed (R192). -/
def State.pushLoad (s : State) (va : Word) (r : Resolved) (len : Nat) (kind : LoadKind) (hint : Nat) : State :=
  let tgt := s.loadTarget s.cur va.toNat len r.tgt
  (s.onCur (fun t => { t with
    q := ({ t.q with
      loads := t.q.loads ++ [(⟨t.q.seq, va, tgt, kind, hint⟩ : LoadAcc)]
      gets := t.q.gets ++ s.constGets t.q.seq tgt.pieces } : Queues).bumpSeq })).resolved s.stage.uid r

/-- A marker pushed into both address queues (R192); `counted` where it takes an access number (R203). -/
def State.pushMarker (s : State) (counted : Bool) (scope : Nat) (va : Word) (tgt : Target) (op : MarkOp) : State :=
  let id := s.fresh
  (s.onCur (fun t =>
    let q := { t.q with
      loads := t.q.loads ++ [⟨t.q.seq, va, .mem [], .marker id, 0⟩]
      stores := t.q.stores ++ [.marker id t.q.seq scope va tgt op none] }
    { t with q := if counted then q.bumpSeq else q })).mint

/-! ## Loads and stores (R194 to R199) -/

/-- `lda` (R195). -/
def execLda (x : Syl) (s : State) : Host.Outcome State Fault Refusal :=
  runWait .A 0x010 x waitTrans (fun g s => memCost (accessBm s (loadEa g x) (2 ^ x.d.toNat) 1)) (fun g s =>
    match s.checked .read (loadEa g x) (2 ^ x.d.toNat) (2 ^ x.d.toNat) x.ch.toNat with
    | .error e => .error e
    | .ok r =>
      let id := s.fresh
      let s1 := (s.onCur (fun t => { t with q := { t.q with ldata := t.q.ldata ++ [⟨id, false, none, 0⟩] } })).mint
      .ok (s1.pushLoad (loadEa g x) r (2 ^ x.d.toNat) (.data id false x.d.toNat) x.ch.toNat)) s

/-- `ldav` (R195). -/
def execLdav (x : Syl) (s : State) : Host.Outcome State Fault Refusal :=
  runWait .A 0x011 x waitTrans (fun g s => memCost (accessBm s (loadEa g x) (regBytes x.d.toNat) 2)) (fun g s =>
    match s.checked .read (loadEa g x) (regBytes x.d.toNat) 1 x.ch.toNat with
    | .error e => .error e
    | .ok r =>
      let id := s.fresh
      let s1 := (s.onCur (fun t =>
        { t with q := { t.q with ldata := t.q.ldata ++ [⟨id, true, none, BitVec.ofNat 6 x.d.toNat⟩] } })).mint
      .ok (s1.pushLoad (loadEa g x) r (regBytes x.d.toNat) (.data id true x.d.toNat) x.ch.toNat)) s

/-- A store address pushed (R196). -/
def State.pushStore (s : State) (va : Word) (tgt : Target) (vec : Bool) (size hint : Nat) : State :=
  s.onCur (fun t => { t with
    q := ({ t.q with stores := t.q.stores ++ [StoreAcc.sta t.q.seq va tgt vec size hint 0] } : Queues).bumpSeq })

/-- The store-data entry that the next address pairs with (R196). -/
def Queues.nextData (q : Queues) : Option StoreData := q.sdata[countSta q.stores]?

/-- `sta` (R196): checked at issue; a pair that it completes must be of its kind, which is looked at last, where the spec gives no
order between the two (DESIGN CHOICE, log entry 54). -/
def execSta (x : Syl) (s : State) : Host.Outcome State Fault Refusal :=
  runWait .A 0x012 x waitTrans (fun g s => memCost (accessBm s (loadEa g x) (2 ^ x.d.toNat) 1)) (fun g s =>
    match s.checked .write (loadEa g x) (2 ^ x.d.toNat) (2 ^ x.d.toNat) x.ch.toNat with
    | .error e => .error e
    | .ok r =>
      if s.cur.q.nextData.any (·.vec) then .error (.fault 4 none)
      else .ok ((s.pushStore (loadEa g x) r.tgt false (2 ^ x.d.toNat) x.ch.toNat).resolved s.stage.uid r)) s

/-- What a store address keeps of its window until its data comes (R206). -/
def Queues.bindingAt (q : Queues) (a : Nat) : Target :=
  match (if inWindow a then q.windowAt a else none) with
  | some w => .window w 0 0
  | none => .mem []

/-- `sta.v` (R196): checked at its issue when its data entry was reserved earlier, else when that entry is reserved. -/
def execStaV (x : Syl) (s : State) : Host.Outcome State Fault Refusal :=
  runWait .A 0x012 x waitTrans
    (fun g s => memCost (accessBm s (loadEa g x) ((s.cur.q.nextData.map (fun e => regBytes e.tag.toNat)).getD 128) 2))
    (fun g s =>
      match s.cur.q.nextData with
      | none => .ok (s.pushStore (loadEa g x) (s.cur.q.bindingAt (loadEa g x).toNat) true 0 x.ch.toNat)
      | some e =>
        if !e.vec then .error (.fault 4 none)
        else
          match s.checked .write (loadEa g x) (regBytes e.tag.toNat) 1 x.ch.toNat with
          | .error st => .error st
          | .ok r => .ok ((s.pushStore (loadEa g x) r.tgt true 0 x.ch.toNat).resolved s.stage.uid r)) s

/-- `mark` (R197). -/
def execMark (x : Syl) (s : State) : Host.Outcome State Fault Refusal :=
  run .A 0x013 x plain (fun _ s => .ok (s.pushMarker false 0 0 (.mem []) .mark)) s

/-- One line prefetched (R198): a line here is looked up and allocated; one of second-tier memory is asked for through its
group, and outside every published window the request ends in the group's record without a fault of the task (R172, R371).
A line of another package is cached in no slice here. -/
def State.prefLine (s : State) (src : Nat) (va : Word) (p : Piece) : State :=
  if s.isRemote p.pa then s
  else if !s.far p then s.touch [p]
  else
    match s.pathTo p.pa with
    | .error cause => s.logError (0x500400 + 0x20 * s.recordGroup p.pa) cause src (BitVec.ofNat 64 p.pa)
    | .ok (g, held) => s.request (.pref src) va p.pa (.read p.len) p.pol g held

/-- `pref` (R198): lines are looked up and allocated; a prefetch that would fail a check is dropped. Through a gather window it
requests nothing (DESIGN CHOICE, log entry 54). -/
def execPref (x : Syl) (s : State) : Host.Outcome State Fault Refusal :=
  runWait .A 0x014 x waitTrans (fun _ _ => memCost (2 ^ x.d.toNat / 64)) (fun g s =>
    let va := BitVec.ofNat 64 ((loadEa g x).toNat / 64 * 64)
    match s.resolve s.cur .read va (2 ^ x.d.toNat) x.ch.toNat with
    | .error _ => .ok s
    | .ok r => .ok ((r.tgt.pieces.flatMap lineParts).foldl (fun s p => s.prefLine s.cur.no va p) (s.resolved s.stage.uid r))) s

/-- `ldr` (R199): the destination is empty until the load performs. -/
def execLdr (x : Syl) (s : State) : Host.Outcome State Fault Refusal :=
  let vec := 64 ≤ x.a.toNat
  let len := if vec then regBytes x.d.toNat else 2 ^ x.d.toNat
  runWait .A 0x015 x waitTrans (fun g s => memCost (accessBm s (loadEa g x) len (if vec then 2 else 1))) (fun g s =>
    match s.checked .read (loadEa g x) len (if vec then 1 else len) x.ch.toNat with
    | .error e => .error e
    | .ok r =>
      match s.produce .ldr x.a.toNat 0 0 (BitVec.ofNat 6 x.d.toNat) with
      | .error e => .error e
      | .ok s1 => .ok (s1.pushLoad (loadEa g x) r len (.reg s.fresh x.a.toNat x.d.toNat) x.ch.toNat)) s

/-! ## Atomics and sync-word operations (R200 to R202) -/

/-- The size of an access word. -/
def accSize (x : Syl) : Nat := if x.d.toNat % 4 = 3 then 8 else 4
/-- VAR of an access word. -/
def accVar (x : Syl) : Bool := x.d.getLsbD 2
/-- SC of an access word. -/
def accScope (x : Syl) : Nat := x.d.toNat / 8 % 8

/-- An atomic may not name a sheaf window (R187). -/
def State.checkedAtomic (s : State) (k : Acc) (ea : Word) (len align : Nat) (hint : Nat := 0) : Except Stop Resolved :=
  match s.checked k ea len align hint with
  | .error e => .error e
  | .ok r =>
    match r.tgt with
    | .window .. => .error (.fault 14 (some ea))
    | .mem _ => .ok r

/-- Where an atomic or `ldfe` delivers: its register, a store-data entry reserved now, an element of a bound output
stream, or nowhere (R201). -/
def State.amoDst (s : State) (a : Nat) : Except Stop (AmoDst × State) :=
  if a = 0 then .ok (.none, s)
  else if a = 54 then
    match s.reserve false 0 with
    | .error e => .error e
    | .ok s1 => .ok (.store s.fresh, s1)
  else
    match s.cur.streamAt a true with
    | some (q, st) =>
      if st.total ≤ st.next then .error (.fault 15 none)
      else
        let st' : Stream := { st with next := st.next + 1, buf := st.buf ++ [⟨s.fresh, none, none⟩] }
        .ok (.stream q s.fresh, ((s.onCur (fun t =>
          { t with q := { t.q with streams := Tab.set t.q.streams q st' } })).pay 1 1).mint)
    | none => .ok (.reg a, s)

/-- An atomic: its marker enters both queues with the operands read (R201). -/
def atomicForm (opc : Nat) (x : Syl) (s : State) : Host.Outcome State Fault Refusal :=
  runWait .A opc x waitTrans (fun _ _ => memCost 1) (fun g s =>
    match s.checkedAtomic .write g.b.w (accSize x) (accSize x) x.ch.toNat with
    | .error e => .error e
    | .ok r =>
      match s.amoDst x.a.toNat with
      | .error e => .error e
      | .ok (dst, s1) =>
        .ok ((s1.pushMarker true (accScope x) g.b.w r.tgt
          (.amo opc (accSize x) (accVar x) g.c.w g.e.w dst)).resolved s.stage.uid r)) s

/-- `amoadd` (R201). -/
def execAmoadd (x : Syl) (s : State) : Host.Outcome State Fault Refusal := atomicForm 0x020 x s
/-- `amoswap` (R201). -/
def execAmoswap (x : Syl) (s : State) : Host.Outcome State Fault Refusal := atomicForm 0x021 x s
/-- `amocas` (R201). -/
def execAmocas (x : Syl) (s : State) : Host.Outcome State Fault Refusal := atomicForm 0x022 x s
/-- `amomin` (R201). -/
def execAmomin (x : Syl) (s : State) : Host.Outcome State Fault Refusal := atomicForm 0x023 x s
/-- `amomax` (R201). -/
def execAmomax (x : Syl) (s : State) : Host.Outcome State Fault Refusal := atomicForm 0x024 x s
/-- `amoand` (R201). -/
def execAmoand (x : Syl) (s : State) : Host.Outcome State Fault Refusal := atomicForm 0x025 x s
/-- `amoor` (R201). -/
def execAmoor (x : Syl) (s : State) : Host.Outcome State Fault Refusal := atomicForm 0x026 x s
/-- `amoxor` (R201). -/
def execAmoxor (x : Syl) (s : State) : Host.Outcome State Fault Refusal := atomicForm 0x027 x s

/-- A sync-word access: an FE = 0 mapping is refused (R190). -/
def State.checkedSync (s : State) (k : Acc) (ea : Word) (len align : Nat) (hint : Nat := 0) : Except Stop Resolved :=
  match s.checkedAtomic k ea len align hint with
  | .error e => .error e
  | .ok r =>
    match r.tgt with
    | .mem ps => if ps.all (·.fe) then .ok r else .error (.fault 13 (some ea))
    | .window .. => .error (.fault 14 (some ea))

/-- `ldfe` (R202). -/
def execLdfe (x : Syl) (s : State) : Host.Outcome State Fault Refusal :=
  runWait .A 0x030 x waitTrans (fun _ _ => memCost 1) (fun g s =>
    match s.checkedSync (if accVar x then .write else .read) g.b.w (accSize x) (accSize x) x.ch.toNat with
    | .error e => .error e
    | .ok r =>
      match s.amoDst x.a.toNat with
      | .error e => .error e
      | .ok (dst, s1) =>
        .ok ((s1.pushMarker true (accScope x) g.b.w r.tgt (.ldfe (accSize x) (accVar x) dst)).resolved s.stage.uid r)) s

/-- `stfe` (R202). -/
def execStfe (x : Syl) (s : State) : Host.Outcome State Fault Refusal :=
  runWait .A 0x031 x waitTrans (fun _ _ => memCost 1) (fun g s =>
    match s.checkedSync .write g.b.w (accSize x) (accSize x) x.ch.toNat with
    | .error e => .error e
    | .ok r =>
      .ok ((s.pushMarker true (accScope x) g.b.w r.tgt (.stfe (accSize x) (accVar x) g.e.w)).resolved s.stage.uid r)) s

/-- `setf` (R202). -/
def execSetf (x : Syl) (s : State) : Host.Outcome State Fault Refusal :=
  runWait .A 0x032 x waitTrans (fun _ _ => memCost 1) (fun g s =>
    match s.checkedSync .write g.b.w 64 64 x.ch.toNat with
    | .error e => .error e
    | .ok r => .ok ((s.pushMarker true (accScope x) g.b.w r.tgt .setf).resolved s.stage.uid r)) s

/-- `sete` (R202). -/
def execSete (x : Syl) (s : State) : Host.Outcome State Fault Refusal :=
  runWait .A 0x033 x waitTrans (fun _ _ => memCost 1) (fun g s =>
    match s.checkedSync .write g.b.w 64 64 x.ch.toNat with
    | .error e => .error e
    | .ok r => .ok ((s.pushMarker true (accScope x) g.b.w r.tgt .sete).resolved s.stage.uid r)) s

/-! ## Fences (R203 to R205) -/

/-- The token of a fence (R203): KIND 0 full, 1 release, 2 acquire. -/
def fenceToken (kind scope seq : Nat) : Word := BitVec.ofNat 64 (2 ^ 63 + kind * 2 ^ 61 + scope % 8 * 2 ^ 58 + seq % 2 ^ 48)

/-- A fence: the token in its register (R204). -/
def fenceForm (opc kind : Nat) (x : Syl) (s : State) : Host.Outcome State Fault Refusal :=
  run .A opc x plain (fun _ s => s.putS x.a 1 (fenceToken kind x.d.toNat s.cur.q.seq)) s

/-- `fence` (R204). -/
def execFence (x : Syl) (s : State) : Host.Outcome State Fault Refusal := fenceForm 0x040 0 x s
/-- `fence.rel` (R204). -/
def execFenceRel (x : Syl) (s : State) : Host.Outcome State Fault Refusal := fenceForm 0x041 1 x s
/-- `fence.acq` (R204). -/
def execFenceAcq (x : Syl) (s : State) : Host.Outcome State Fault Refusal := fenceForm 0x042 2 x s

/-- Whether a token's kind covers a marker's operation, as a store and as a load (R204). -/
def MarkOp.covered (op : MarkOp) (kind : Nat) : Bool :=
  match op with
  | .mark => false
  | .amo .. | .ldfe .. => true
  | _ => kind != 2

/-- The line of an address of a task, where it is mapped. -/
def State.vaLine (s : State) (t : Task) (k : Acc) (va : Word) : Nat :=
  match s.resolvePlain t k va.toNat 1 0 with
  | .ok r => r.tgt.line
  | .error _ => 0

/-- The home line that an access touches next, for its awaited identity (R205): through a sheaf window that of the element whose
turn it is, or of its index while that has not been read; of a vector store without data that of its address. -/
def State.awaitedLine (s : State) (uid : Nat) (t : Task) (seq : Nat) (va : Word) (k : Acc) (tgt : Target) (entered : Nat) : Nat :=
  match tgt with
  | .mem [] => s.vaLine t k va
  | .mem _ => tgt.line
  | .window w _ _ =>
    let o := (va.toNat - windowBase) % 2 ^ 32
    let j := o / 2 ^ w.log2z + entered
    match s.windowReach uid seq none w k 0 [(j, o % 2 ^ w.log2z, 1)] with
    | .ok ((_, p) :: _, _) => p.pa / 64
    | _ => s.vaLine t .read (w.index + BitVec.ofNat 64 (4 * j))

/-- The accesses of a task that a token covers and that have not performed at its scope, by number, with what each lets the
task await (R204, R205): queued ones, those of the interrupted code in the trap frame (R329), and stores of the buffer. -/
def State.uncovered (s : State) (uid : Nat) (t : Task) (kind scope limit : Nat) : List (Nat × Awaits) :=
  let loads := if kind = 1 then [] else
    (t.flow.frame.loads ++ t.q.loads).filterMap (fun a =>
      match a.kind with
      | .marker _ => none
      | _ => if a.seq < limit then some (a.seq, .fence (s.awaitedLine uid t a.seq a.va .read a.tgt 0)) else none)
  let stores := (t.flow.frame.stores ++ t.q.stores).filterMap (fun e =>
    match e with
    | .sta n va tgt _ _ _ entered =>
      if kind != 2 && n < limit then some (n, .fence (s.awaitedLine uid t n va .write tgt entered)) else none
    | .marker _ n _ _ tgt op _ =>
      if n < limit && op.covered kind then
        some (n, match op with | .tlbinv .. => .transCache | _ => .fence tgt.line)
      else none)
  let places := if kind = 2 || scope = 0 then [] else
    t.q.buffer.flatMap (fun p => p.seqs.filterMap (fun e => if e.1 ≤ limit then some (e.1 - 1, .fence p.line) else none))
  loads ++ stores ++ places

/-- The identity of the oldest of some accesses. -/
def oldest : List (Nat × Awaits) → Option Awaits
  | [] => none
  | e :: es => some (es.foldl (fun m e => if e.1 < m.1 then e else m) e).2

/-- The wait of `fwait` (R205): what the oldest covered access not yet performed lets it await. -/
def waitFwait (g : Args) (s : State) : Option Stop :=
  let w := g.b.w
  let kind := getBits w 61 2
  if !w.getLsbD 63 || kind = 3 then none
  else (oldest (s.uncovered s.stage.uid s.cur kind (min 4 (getBits w 58 3)) (min (getBits w 0 48) s.cur.q.seq))).map .block

/-- `fwait` (R205). -/
def execFwait (x : Syl) (s : State) : Host.Outcome State Fault Refusal :=
  runWait .A 0x043 x waitFwait plain (fun _ s => .ok s) s

/-! ## Sheaf windows (R206) -/

/-- Window descriptors in use on a tiller (R187). -/
def State.descriptors (s : State) (tiller : Nat) : Nat :=
  ((s.tasks.filter (fun e => e.2.ctx.any (fun c => c / 8 == tiller))).map (fun e => e.2.q.windows.length)).foldl (· + ·) 0

/-- A binding: the window, and a marker that realigns the queues. -/
def bindForm (opc : Nat) (scatter : Bool) (x : Syl) (s : State) : Host.Outcome State Fault Refusal :=
  run .A opc x plain (fun g s =>
    let z := 2 ^ x.d.toNat
    let va := BitVec.ofNat 64 (windowBase + x.a.toNat * 2 ^ 32)
    if g.b.w.toNat % z ≠ 0 then .error (.fault 6 (some g.b.w))
    else if g.c.w.toNat % 4 ≠ 0 then .error (.fault 6 (some g.c.w))
    else if 2 ^ 32 / z < g.e.w.toNat then .error (.fault 14 (some va))
    else if (Tab.get? s.cur.q.windows x.a.toNat).isNone && 16 ≤ s.descriptors s.cur.tiller then .error (.fault 14 (some va))
    else
      let w : Window := ⟨scatter, g.b.w, g.c.w, x.d.toNat, g.e.w.toNat⟩
      .ok ((s.onCur (fun t => { t with q := { t.q with windows := Tab.set t.q.windows x.a.toNat w } })).pushMarker false 0 0 (.mem []) .mark)) s

/-- `shbind` (R206). -/
def execShbind (x : Syl) (s : State) : Host.Outcome State Fault Refusal := bindForm 0x050 false x s
/-- `shbindw` (R206). -/
def execShbindw (x : Syl) (s : State) : Host.Outcome State Fault Refusal := bindForm 0x051 true x s

/-- `shunb` (R206). -/
def execShunb (x : Syl) (s : State) : Host.Outcome State Fault Refusal :=
  run .A 0x052 x plain (fun _ s =>
    .ok ((s.onCur (fun t => { t with q := { t.q with windows := Tab.erase t.q.windows x.a.toNat } })).pushMarker
      false 0 0 (.mem []) .mark)) s

/-! ## Translation invalidation (R207) -/

/-- An invalidation: PL checked, its marker pushed. -/
def tlbinvForm (mode : Nat) (x : Syl) (s : State) : Host.Outcome State Fault Refusal :=
  run .A 0x060 x plain (fun g s =>
    if s.cur.pl < (if mode = 3 then 2 else 1) then .error (.fault 5 none)
    else .ok (s.pushMarker true 3 g.b.w (.mem []) (.tlbinv mode (x.d.toNat / 4) s.cur.tenant g.b.w g.e.w))) s

/-- `tlbinv.page` (R207). -/
def execTlbinvPage (x : Syl) (s : State) : Host.Outcome State Fault Refusal := tlbinvForm 0 x s
/-- `tlbinv.range` (R207). -/
def execTlbinvRange (x : Syl) (s : State) : Host.Outcome State Fault Refusal := tlbinvForm 1 x s
/-- `tlbinv.tenant` (R207). -/
def execTlbinvTenant (x : Syl) (s : State) : Host.Outcome State Fault Refusal := tlbinvForm 2 x s
/-- `tlbinv.all` (R207). -/
def execTlbinvAll (x : Syl) (s : State) : Host.Outcome State Fault Refusal := tlbinvForm 3 x s

/-! ## Fill requests (R267, R270) -/

/-- A word of a Gleaner region entry (R268, R370). -/
def State.regionWord (s : State) (n i : Nat) : Word := s.reg (0x400000 + 64 * n + 8 * i)

/-- The bytes of the K or V lines of one group of a region. -/
def State.regionSpan (s : State) (n : Nat) : Nat :=
  getBits (s.regionWord n 6) 16 16 * (packedBits (getBits (s.regionWord n 6) 32 6) / 8)

/-- The token and layer (from L0) of an address in the K or V lines from `base` (R267). -/
def State.groupIn (s : State) (n base va : Nat) : Option (Nat × Nat) :=
  let ts := getBits (s.regionWord n 2) 0 32
  let ls := getBits (s.regionWord n 2) 32 32
  (List.range (getBits (s.regionWord n 3) 40 8)).findSome? (fun li =>
    let k := base + li * ls
    let t := if ts = 0 then 0 else (va - k) / ts
    if k ≤ va && t < getBits (s.regionWord n 3) 0 32 && va - k - t * ts < s.regionSpan n then some (t, li) else none)

/-- The fill group of an address: region, token and layer (R267, R270). -/
def State.fillGroup (s : State) (tenant va : Nat) : Option (Nat × Nat × Nat) :=
  (List.range 32).findSome? (fun n =>
    let w := s.regionWord n 3
    if w.getLsbD 63 && getBits w 48 6 == tenant then
      match (s.groupIn n (getBits (s.regionWord n 0) 0 56) va).orElse
          (fun _ => s.groupIn n (getBits (s.regionWord n 1) 0 56) va) with
      | some (t, li) => some (n, t, getBits w 32 8 + li)
      | none => none
    else none)

/-- Whether a request for a group is queued on some die or held at some plot. -/
def State.fillAsked (s : State) (region token layer : Nat) : Bool :=
  s.dies.any (fun d => d.2.fills.any
      (fun e => match e with | .fill r t l _ => r == region && t == token && l == layer | _ => false)) ||
    s.plots.any (fun e => e.2.fills.contains (region, token, layer))

/-- A request put into a die's fill queue, or held at the plot; the flag says whether one stands now (R270). -/
def State.enqueueFill (s : State) (plot region token layer : Nat) : State × Bool :=
  let d := s.die (plot / 32)
  let p := s.plot plot
  if s.fillAsked region token layer then (s, true)
  else if d.fills.length < 256 then
    ((s.setDie (plot / 32) { d with fills := d.fills ++ [.fill region token layer plot] }).bumpDie (plot / 32) 1, true)
  else if p.fills.length < 16 then
    ((s.setPlot plot { p with fills := p.fills ++ [(region, token, layer)] }).bumpDie (plot / 32) 1, true)
  else (s, false)

/-- An access of a task noted as parked; the cycle is that of a request which found no room. -/
def Task.park (t : Task) (seq : Nat) (va : Word) (at_ : Option Nat) : Task :=
  { t with q := { t.q with parked := Tab.set t.q.parked seq (va, at_) } }

/-- A request raised for the fill group of an address, if it lies in one, by an access of a task that is noted as parked (R270). -/
def State.askFill (s : State) (uid seq : Nat) (va : Word) : State :=
  match s.task? uid with
  | none => s
  | some t =>
    match s.fillGroup t.tenant (va.toNat / 64 * 64) with
    | none => s.onTask uid (fun t => t.park seq va none)
    | some (r, tok, l) =>
      let e := s.enqueueFill t.plot r tok l
      e.1.onTask uid (fun t => t.park seq va (if e.2 then none else some s.cycle))

/-- An access of a task that parks on an empty line raises a request for the line's fill group, if it has one, once for each
group (R270). -/
def State.raiseFill (s : State) (uid seq : Nat) (va : Word) : State :=
  match s.task? uid with
  | none => s
  | some t =>
    let group (a : Word) : Option (Nat × Nat × Nat) := s.fillGroup t.tenant (a.toNat / 64 * 64)
    if (Tab.get? t.q.parked seq).any (fun e => e.1.toNat / 64 == va.toNat / 64 || (group va).isSome && group e.1 == group va) then s
    else s.askFill uid seq va

/-! ## Loads perform (R192, R195, R199) -/

/-- The bytes of a load. -/
def LoadKind.bytes : LoadKind → Nat
  | .data _ vec code => if vec then regBytes code else 2 ^ code
  | .reg _ r code => if 64 ≤ r then regBytes code else 2 ^ code
  | .marker _ => 0

/-- Whether a load may perform before one ahead of it: different lines, one of them remote (R192). -/
def State.mayPass (s : State) (a b : LoadAcc) : Bool :=
  match a.kind, a.tgt, b.tgt with
  | .marker _, _, _ => false
  | _, .mem ps, .mem qs =>
    (ps.any (fun p => s.isRemote p.pa) || qs.any (fun p => s.isRemote p.pa)) &&
      !ps.any (fun p => (pieceLines p).any (fun l => qs.any (fun q => (pieceLines q).contains l)))
  | _, _, _ => false

/-- A load's data delivered to its entry or register: zeros with tag raw where it failed (R190). -/
def Task.deliver (t : Task) (kind : LoadKind) (bs : Option (List Byte)) : Task :=
  match kind with
  | .data id vec code =>
    let v : Vec := match bs with
      | none => 0
      | some bs => if vec then unpackReg code bs else BitVec.ofNat 1024 (leNat bs)
    let f (e : LoadData) : LoadData :=
      if e.id = id then { e with data := some v, tag := if bs.isNone then 0 else e.tag } else e
    { t with q := { t.q with ldata := t.q.ldata.map f } }
  | .reg id r code =>
    match bs with
    | none => t.fill id 0 0
    | some bs =>
      if 64 ≤ r then t.fill id (unpackReg code bs) (BitVec.ofNat 6 code) else t.fill id (BitVec.ofNat 1024 (leNat bs)) 0
  | .marker _ => t

/-- What the queues keep of an access beside its entries goes with it. -/
def Queues.forget (q : Queues) (seq : Nat) : Queues :=
  { q with
    gets := q.gets.filter (fun g => g.seq != seq)
    parked := Tab.erase q.parked seq
    consts := q.consts.filter (fun r => r.seq != seq) }

/-- A load leaves the queue with its data. -/
def Task.finishLoad (t : Task) (seq : Nat) (bs : Option (List Byte)) : Task :=
  match t.q.loads.find? (fun a => a.seq == seq && (match a.kind with | .marker _ => false | _ => true)) with
  | none => t
  | some a => ({ t with q := ({ t.q with loads := t.q.loads.filter (fun b => b != a) }).forget seq }).deliver a.kind bs

/-- The value and tag that a load into a register delivers. -/
def regData (r code : Nat) (bs : Option (List Byte)) : Vec × Tag :=
  match bs with
  | none => (0, 0)
  | some bs => if 64 ≤ r then (unpackReg code bs, BitVec.ofNat 6 code) else (BitVec.ofNat 1024 (leNat bs), 0)

/-- A load of a task finished; a register of a Yielded task is filled in its image (R89). -/
def State.finishLoad (s : State) (uid seq : Nat) (bs : Option (List Byte)) : State :=
  match s.task? uid with
  | none => s
  | some t =>
    if t.phase = .yielded then
      match t.q.loads.find? (fun a => a.seq == seq) with
      | some a =>
        let s1 := s.setTask uid { t with q := ({ t.q with loads := t.q.loads.filter (fun b => b != a) }).forget seq }
        match a.kind with
        | .reg id r code => s1.fillTask uid id (regData r code bs).1 (regData r code bs).2
        | _ => s1
      | none => s
    else s.setTask uid (t.finishLoad seq bs)

/-- Whether a load fills a register, so that it goes on while its task is saved (R89). -/
def LoadAcc.fills (a : LoadAcc) : Bool := match a.kind with | .reg .. => true | _ => false

/-- Whether the phase of a task lets its queued accesses perform. -/
def Task.live (t : Task) : Bool :=
  match t.phase with
  | .saving | .yielded => false
  | _ => true

/-- The pair at the head leaves its queues. -/
def Queues.popPair (q : Queues) : Queues := { q with stores := q.stores.drop 1, sdata := q.sdata.drop 1 }

/-- Whether the store at the head of a queue has a number. -/
def Queues.headIs (q : Queues) (seq : Nat) : Bool :=
  match q.stores with
  | .sta n .. :: _ => n == seq
  | _ => false

/-- An access that fails after issue ends: a load delivers zeros, a store writes nothing (R190). -/
def State.loseAccess (s : State) (uid seq : Nat) : State :=
  match s.task? uid with
  | none => s
  | some t =>
    if t.q.headIs seq then s.setTask uid { t with q := t.q.popPair.forget seq } else s.finishLoad uid seq none

/-- A queued access reads the part of a piece in one line behind the fabric: a request leaves, or a fault record ends the access
where no path serves it (R354). One request leaves for it. -/
def State.ask (s : State) (uid seq : Nat) (va : Word) (p : Piece) : State :=
  if (s.task? uid).any (fun t => t.q.gets.any (fun g => g.seq == seq && g.pa == p.pa && g.len == p.len)) then s
  else
    match s.pathTo p.pa with
    | .error cause => (s.loseAccess uid seq).faultRecord uid va p.pa (s.recordGroup p.pa) cause
    | .ok (g, held) =>
      let get : Get := ⟨seq, s.fresh, p.pa, p.len, none, []⟩
      (s.onTask uid (fun t => { t with q := { t.q with gets := t.q.gets ++ [get] } })).request (.load uid seq) va p.pa
        (if p.fe then .syncRead p.len else .read p.len) p.pol g held

/-- What an access does at its turn that has not reached its pieces (R187). -/
def State.reach (s : State) (uid seq : Nat) : Reach → State
  | .fault _ va => (s.loseAccess uid seq).onTask uid (fun t => t.late (BitVec.ofNat 64 va))
  | .ask va p => s.ask uid seq va p
  | .empty va => s.raiseFill uid seq va
  | .wait => s

/-- Whether no path serves a piece. -/
def State.pathless (s : State) (p : Piece) : Bool := match s.pathTo p.pa with | .error _ => true | .ok _ => false

/-- A load performs with its pieces, each with the address that a record of it names: what lies behind the fabric is asked
for first, where one part has no path a single record ends it, an empty sync line holds it back and raises a fill request, and
then its bytes are fixed (R185, R190, R192, R214, R270, R354). -/
def State.loadFrom (s : State) (uid : Nat) (a : LoadAcc) (ps : List (Word × Piece)) : State :=
  match s.task? uid with
  | none => s
  | some t =>
    let qs := ps.map (·.2)
    let missing := (ps.flatMap (fun e => (lineParts e.2).map (fun p => (e.1, p)))).filter
      (fun e => (s.pieceBytes t.q a.seq none e.2).isNone)
    if s.piecesHeld uid a.seq qs then s
    else if !missing.isEmpty then
      match missing.find? (fun e => s.pathless e.2) with
      | some e => s.ask uid a.seq e.1 e.2
      | none => missing.foldl (fun s e => s.ask uid a.seq e.1 e.2) s
    else
      match s.emptyAt a.va qs with
      | some va => s.raiseFill uid a.seq va
      | none => (s.touch qs).finishLoad uid a.seq (some (qs.flatMap (fun p => (s.pieceBytes t.q a.seq none p).getD [])))

/-- Whether a sampler core has still to make the reads of a request that a task issued before access `seq`; they stand in the
task's order as reads pushed with it (R397). -/
def State.sampleAhead (s : State) (uid seq : Nat) : Bool :=
  s.dies.any (fun d => d.2.samples.any (fun e => e.uid == uid && e.pushed ≤ seq && e.sent.isNone))

/-- The load whose turn is tried performs (R192). -/
def execLoadPerform (c n : Nat) (s : State) : Host.Outcome State Fault Refusal :=
  match s.task? c with
  | none => .next s
  | some t =>
    match t.q.loads[n]? with
    | none => .next s
    | some a =>
      if (!t.live && !a.fills) || (match a.kind with | .marker _ => true | _ => false) ||
          !(t.q.loads.take n).all (fun b => s.mayPass b a) || s.sampleAhead c a.seq then .next s
      else
        match a.tgt with
        | .mem ps => .next (s.loadFrom c a (ps.map (fun p => (a.va, p))))
        | .window w off len =>
          match s.windowReach c a.seq none w .read a.hint (windowElems w off len) with
          | .error e => .next (s.reach c a.seq e)
          | .ok (ps, s1) => .next (s1.loadFrom c a ps)

/-! ## Stores perform (R191, R196) -/

/-- A marker leaves both queues. -/
def Queues.popMarker (q : Queues) (id : Nat) : Queues :=
  { q with
    stores := q.stores.filter (fun e => match e with | .marker i .. => i != id | _ => true)
    loads := q.loads.filter (fun a => match a.kind with | .marker i => i != id | _ => true) }

/-- Whether the marker at the head of the stores may perform: every load ahead of it has, and beyond task scope the
store buffer is written at home (R192, R200). -/
def Queues.markerReady (q : Queues) (id scope : Nat) : Bool :=
  (match q.loads with
   | a :: _ => a.kind == .marker id
   | [] => false) && (scope == 0 || q.buffer.isEmpty)

/-- Bytes of a store enter the buffer where it has room (R191). -/
def Queues.enter (q : Queues) (seq : Nat) (ls : List LinePart) : Option Queues :=
  let q' := q.bufferAll ls (seq + 1)
  if 16 < q'.buffer.length then none else some q'

/-- The number of elements of the scatter at the head that are in the buffer counted up. -/
def Queues.entering (q : Queues) : Queues :=
  match q.stores with
  | .sta a b c d e f n :: rest => { q with stores := .sta a b c d e f (n + 1) :: rest }
  | _ => q

/-- The elements of a scatter enter the buffer one by one in increasing order, once all that are left can be reached (R187,
R190). -/
def State.scatter (s : State) (uid seq : Nat) (w : Window) (off hint entered : Nat) (bs : List Byte) : State :=
  let es := windowElems w off bs.length
  let left := es.drop entered
  match s.windowReach uid seq none w .write hint left, s.windowReach uid seq none w .write hint (left.take 1) with
  | .error e, _ => s.reach uid seq e
  | _, .error e => s.reach uid seq e
  | .ok _, .ok (ps, s1) =>
    if s1.piecesHeld uid seq (ps.map (·.2)) then s1
    else
      let mine := bs.drop (((es.take entered).map (·.2.2)).foldl (· + ·) 0)
      s1.onTask uid (fun t =>
        match t.q.enter seq (splitStore ((ps.map (·.1)).headD 0) (ps.map (·.2)) mine) with
        | none => t
        | some q => { t with q := if left.length ≤ 1 then q.popPair.forget seq else q.entering })

/-- The pair at the head enters the store buffer, or a `mark` there is done (R191, R196, R197). -/
def execStorePerform (c : Nat) (s : State) : Host.Outcome State Fault Refusal :=
  match s.task? c with
  | none => .next s
  | some t =>
    if !t.live then .next s
    else
      match t.q.stores with
      | .marker id seq scope _ _ .mark _ :: _ =>
        if t.q.markerReady id scope && !s.sampleAhead c seq then .next (s.onTask c (fun t => { t with q := t.q.popMarker id })) else .next s
      | .sta seq va tgt vec size hint entered :: _ =>
        match t.q.sdata with
        | [] => .next s
        | d :: _ =>
          match d.data, tgt with
          | none, _ => .next s
          | some v, .mem ps =>
            if s.piecesHeld c seq ps then .next s
            else
              match t.q.enter seq (splitStore va ps (storeBytes vec size d v)) with
              | none => .next s
              | some q => .next (s.setTask c { t with q := q.popPair })
          | some v, .window w off _ => .next (s.scatter c seq w off hint entered (storeBytes vec size d v))
      | _ => .next s

/-- Whether a place may leave before another that is ahead of it: they are of different lines, and one of them is homed on
another package (R192). -/
def State.placePasses (s : State) (ahead p : Place) : Bool :=
  ahead.line != p.line && (s.isRemote (ahead.line * 64) || s.isRemote (p.line * 64))

/-- The first place that has not left and that may leave now: those homed in the package leave in queue order (R191, R192). -/
def State.nextPlace (s : State) (q : Queues) : Option (Nat × Place) :=
  (q.buffer.zipIdx.find? (fun e => e.1.sent.isNone && (q.buffer.take e.2).all (fun r => s.placePasses r e.1))).map
    (fun e => (e.2, e.1))

/-- An access of the store buffer ends in a fault record that names its address: it writes nothing more (R190, R354). What it
had written at home before in another line stays (DEDUCED, log entry 31). -/
def State.loseStore (s : State) (uid : Nat) (who : Nat × Word) (line g cause : Nat) : State :=
  (s.onTask uid (fun t => { t with q := t.q.disown who })).faultRecord uid who.2 (line * 64) g cause

/-- Every access with bytes in a place ends in a fault record of its own (R190, R354). -/
def State.losePlace (s : State) (uid : Nat) (p : Place) (g cause : Nat) : State :=
  p.seqs.foldl (fun s e => s.loseStore uid e p.line g cause) s

/-- The first access with bytes in a place that has no path for this place or for another one of its own: its place and the
cause. -/
def State.pathlessStore (s : State) (q : Queues) (p : Place) : Option ((Nat × Word) × Nat × Nat) :=
  p.seqs.findSome? (fun e => q.buffer.findSome? (fun r =>
    if r.sent.isNone && r.seqs.contains e && s.placeFar r then
      match s.pathTo (r.line * 64) with
      | .error cause => some (e, r.line, cause)
      | .ok _ => none
    else none))

/-- The oldest place is written at home (R191, R211); behind the fabric its bytes leave with a request, and the place
stays until the answer. An access of it that has no path, for these bytes or for others, ends first (R190). -/
def execStoreBufferWriteback (c : Nat) (s : State) : Host.Outcome State Fault Refusal :=
  match s.task? c with
  | none => .next s
  | some t =>
    match s.nextPlace t.q with
    | none => .next s
    | some (i, p) =>
      let gone (t : Task) : Task := { t with q := { t.q with buffer := t.q.buffer.eraseIdx i } }
      let pa := p.line * 64
      match s.pathlessStore t.q p with
      | some (who, line, cause) => .next ((s.loseStore c who line (s.recordGroup (line * 64)) cause).leaveDrained c)
      | none =>
      if s.placeFar p then
        match s.pathTo pa with
        | .error cause => .next (((s.onTask c gone).losePlace c p (s.recordGroup pa) cause).leaveDrained c)
        | .ok (g, held) =>
          let p' : Place := { p with sent := some s.fresh }
          let s1 := s.onTask c (fun t => { t with q := { t.q with buffer := t.q.buffer.set i p' } })
          .next (s1.request (.store c) ((p.seqs.head?.map (·.2)).getD 0) pa (.cells p.bytes) p.pol g held)
      else .next (((s.writePlace p).onTask c gone).leaveDrained c)

/-! ## Atomics and sync-word operations perform -/

/-- The new value of an atomic from the low `8 × size` bits (R201): `x` is s[C], `y` operand E. -/
def amoNew (opc size : Nat) (sgn : Bool) (old x y : Nat) : Nat :=
  let m := 2 ^ (8 * size)
  let y := y % m
  let less := if sgn then signed (8 * size) y < signed (8 * size) old else (y : Int) < old
  if opc = 0x20 then (old + y) % m
  else if opc = 0x21 then y
  else if opc = 0x22 then (if old = x % m then y else old)
  else if opc = 0x23 then (if less then y else old)
  else if opc = 0x24 then (if less then old else y)
  else if opc = 0x25 then old &&& y
  else if opc = 0x26 then old ||| y
  else old ^^^ y

/-- A value delivered to where an atomic or `ldfe` names (R201, R202). -/
def Task.deliverAmo (t : Task) (dst : AmoDst) (w : Word) : Task :=
  match dst with
  | .none => t
  | .reg n => { t with regs := t.regs.setS n w }
  | .store id => { t with q := t.q.landData id (vec w) }
  | .stream q id => { t with q := t.q.landElem q id (vec w) }

/-- The places of a store buffer that are homed in the package, as far as the last one of a line. -/
def State.aheadOf (s : State) (q : Queues) (line : Nat) : List Place :=
  (q.buffer.reverse.dropWhile (fun p => p.line != line)).reverse.filter (fun p => !s.isRemote (p.line * 64))

/-- Whether one of them must reach its home through the fabric first. -/
def State.lineAway (s : State) (q : Queues) (line : Nat) : Bool :=
  (s.aheadOf q line).any (fun p => p.sent.isSome || s.placeFar p)

/-- The places of a line written at home before an operation acts there, behind those ahead of them (R191, R192). -/
def State.flushLine (s : State) (c line : Nat) : State :=
  match s.task? c with
  | none => s
  | some t =>
    let ps := s.aheadOf t.q line
    (ps.foldl State.writePlace s).onTask c (fun t => { t with q := { t.q with buffer := t.q.buffer.filter (fun p => !ps.contains p) } })

/-- The operation of a marker under way, in the queues or in the trap frame. -/
def Task.markerOp (t : Task) (id : Nat) : Option MarkOp :=
  (t.q.stores ++ t.flow.frame.stores).findSome? (fun e => match e with
    | .marker i _ _ _ _ op _ => if i = id then some op else none
    | _ => none)

/-- Where a marker's operation delivers. -/
def MarkOp.dst : MarkOp → AmoDst
  | .amo _ _ _ _ _ d => d
  | .ldfe _ _ d => d
  | _ => .none

/-- A marker performed: it leaves the queues and the frame, and its value, if it has one, is delivered. -/
def Task.finishMarker (t : Task) (id : Nat) (w : Option Word) : Task :=
  match t.markerOp id with
  | none => t
  | some op =>
    let f := t.flow.frame
    let g : Frame := { f with
      stores := f.stores.filter (fun e => match e with | .marker i .. => i != id | _ => true)
      loads := f.loads.filter (fun a => match a.kind with | .marker i => i != id | _ => true)
      sdata := match op.dst, w with
        | .store d, some w => f.sdata.map (fun e => if e.id = d then { e with data := some (vec w) } else e)
        | _, _ => f.sdata }
    let u : Task := { t with q := t.q.popMarker id, flow := { t.flow with frame := g } }
    match w with
    | some w => u.deliverAmo op.dst w
    | none => u

/-- A marker whose access failed after issue (R190): an `ldfe` delivers zero as a load does; an atomic writes nothing, and what
fills a queue entry or a stream element in its place is a free value (DESIGN CHOICE, log entry 5). -/
def State.failMarker (s : State) (c id : Nat) : State :=
  let free := Config.freeWord s.fresh
  (s.onTask c (fun t => t.finishMarker id (match t.markerOp id with
    | some (.amo _ _ _ _ _ (.store _)) | some (.amo _ _ _ _ _ (.stream ..)) => some free
    | some (.ldfe ..) => some 0
    | _ => none))).mint

/-- The access of a marker that works on one piece of memory: where it is far, the request for it. -/
def State.sendMarker (s : State) (c id : Nat) (va : Word) (p : Piece) (op : FarOp) : State :=
  let pa := p.pa
  match s.pathTo pa with
  | .error cause =>
    (s.failMarker c id).faultRecord c va pa (s.recordGroup pa) cause
  | .ok (g, held) =>
    let mark (e : StoreAcc) : StoreAcc := match e with
      | .marker i a b d f o _ => if i = id then .marker i a b d f o (some s.fresh) else e
      | _ => e
    (s.onTask c (fun t => { t with q := { t.q with stores := t.q.stores.map mark } })).request (.marker c id) va pa op p.pol g held

/-- The value that an atomic delivers: the old bits, sign-extended with VAR (R201). -/
def amoValue (size : Nat) (sgn : Bool) (old : Nat) : Word :=
  if sgn then BitVec.ofInt 64 (signed (8 * size) old) else BitVec.ofNat 64 (old % 2 ^ (8 * size))

/-- The atomic at the head of the stores performs (R201). -/
def execAtomicPerform (c : Nat) (s : State) : Host.Outcome State Fault Refusal :=
  match s.task? c with
  | none => .next s
  | some t =>
    match t.q.stores with
    | .marker id seq scope va (.mem (p :: _)) (.amo opc size sgn x y dst) none :: _ =>
      if !t.live || !t.q.markerReady id scope || s.sampleAhead c seq || s.holds c seq (p.pa / 64) then .next s
      else if s.far p then
        if t.q.buffer.any (fun b => b.line == p.pa / 64) then .next s
        else .next (s.sendMarker c id va p
          (.atomic (opc + (if p.fe then 0x100 else 0) + if sgn then 0x200 else 0) size x y))
      else if p.fe && !s.full p.pa then .next (s.raiseFill c seq va)
      else if s.lineAway t.q (p.pa / 64) then .next s
      else
        let s1 := (s.flushLine c (p.pa / 64)).touch [p]
        let old := leNat (s1.bytes p.pa size)
        let s2 := s1.store p.pa (toLe size (amoNew opc size sgn old x.toNat y.toNat))
        .next (s2.onTask c (fun t =>
          ({ t with q := (t.q.popMarker id).forget seq }).deliverAmo dst (amoValue size (sgn && (opc == 0x23 || opc == 0x24)) old)))
    | _ => .next s

/-- What a sync-word operation does at its line: whether it may act, and the line afterwards (R202). -/
def syncReady (s : State) (pa : Nat) (op : MarkOp) : Bool :=
  match op with
  | .ldfe .. => s.full pa
  | .stfe _ force _ => force || !s.full pa
  | _ => true

/-- The effect of a sync-word operation at home (R202). -/
def State.syncAct (s : State) (pa : Nat) (op : MarkOp) : State :=
  match op with
  | .ldfe _ consume _ => if consume then s.setEmpty pa else s
  | .stfe size _ x => (s.store pa (toLe size x.toNat)).setFull pa
  | .setf => s.setFull pa
  | .sete => s.setEmpty pa
  | _ => s

/-- The request that carries a sync-word operation to another package (R354). -/
def MarkOp.far : MarkOp → Option FarOp
  | .ldfe size consume _ => some (if consume then .atomic 0x30 size 0 0 else .syncRead size)
  | .stfe size force x => some (if force then .atomic 0x31 size 0 x else .syncWrite size x)
  | .setf => some .setFull
  | .sete => some .setEmpty
  | _ => none

/-- The sync-word operation at the head of the stores performs (R202). -/
def execSyncOpPerform (c : Nat) (s : State) : Host.Outcome State Fault Refusal :=
  match s.task? c with
  | none => .next s
  | some t =>
    match t.q.stores with
    | .marker id seq scope va (.mem (p :: _)) op none :: _ =>
      match op.far with
      | none => .next s
      | some f =>
        if !t.live || !t.q.markerReady id scope || s.sampleAhead c seq || s.holds c seq (p.pa / 64) then .next s
        else if s.far p then
          if t.q.buffer.any (fun b => b.line == p.pa / 64) then .next s else .next (s.sendMarker c id va p f)
        else if !syncReady s p.pa op then
          .next (match op with | .ldfe .. => s.raiseFill c seq va | _ => s)
        else if s.lineAway t.q (p.pa / 64) then .next s
        else
          let s1 := (s.flushLine c (p.pa / 64)).touch [p]
          let done (s : State) (f : Task → Task) : State :=
            (s.syncAct p.pa op).onTask c (fun t => f { t with q := (t.q.popMarker id).forget seq })
          .next (match op with
            | .ldfe size _ dst => done s1 (fun t => t.deliverAmo dst (BitVec.ofNat 64 (leNat (s1.bytes p.pa size))))
            | _ => done s1 (fun t => t))
    | _ => .next s

/-! ## Late-access faults (R190) -/

/-- A late-access record is taken at a bundle boundary outside the handler (R190, R330, R332). -/
def State.takeLate (s : State) (c : Nat) : State :=
  match s.task? c with
  | none => s
  | some t =>
    match t.flow.lates with
    | [] => s
    | va :: rest =>
      if t.flow.inHandler then s
      else
        (s.setTask c { t with flow := { t.flow with lates := rest } }).trapTask c ⟨16, 0, t.pc, none, some va⟩ s.cycle

/-- The late-access fault of a task at its next bundle (R190). -/
def execLateAccessFault (c : Nat) (s : State) : Host.Outcome State Fault Refusal :=
  match s.task? c with
  | none => .next s
  | some t =>
    match t.phase with
    | .ready | .blocked _ => .next (s.takeLate c)
    | _ => .next s

/-! ## Invalidations complete (R186, R208) -/

/-- The plots within the scope of an invalidation (R207). -/
def scopePlots (scope plot : Nat) : List Nat :=
  if scope = 1 then [plot]
  else if scope = 2 then (List.range 32).map (fun i => plot / 32 * 32 + i)
  else List.range 128

/-- Whether an invalidation removes a cached entry (R207). -/
def TcEntry.removed (e : TcEntry) (mode tenant addr len : Nat) : Bool :=
  let lo := e.index * 2 ^ (12 + 9 * e.level)
  let span := if pteLeaf e.pte && e.level == 0 && ptePs64 e.pte then 2 ^ 16 else 2 ^ (12 + 9 * e.level)
  let lo' := lo / span * span
  if mode = 3 then true
  else if e.tenant != tenant then false
  else if mode = 2 then true
  else if mode = 1 then 0 < len && lo' < addr + len && addr < lo' + span
  else lo' ≤ addr && addr < lo' + span

/-- A translation marker put into each Drill queue of a plot that holds commands (R186). -/
def State.markDrills (s : State) (plot : Nat) : State :=
  (List.range 4).foldl (fun s i =>
    let x := s.tiller (4 * plot + i)
    if x.drill.isEmpty then s
    else
      let mk : DrillCmd := ⟨s.fresh, .marker, 0, 0, 0, 64, 0, 0, 0, 0, 0, 0, false, [], [], 0, 0, 0, [], 0, [], [], true, [], [], none⟩
      (s.setTiller (4 * plot + i) { x with drill := x.drill ++ [mk] }).mint) s

/-- A plot's cache without the entries that a test removes, and a marker in each of its Drill queues (R186). -/
def State.dropEntries (s : State) (plot : Nat) (gone : TcEntry → Bool) : State :=
  let p := s.plot plot
  (s.setPlot plot { p with tc := p.tc.filter (fun e => !gone e) }).markDrills plot

/-- An invalidation at one plot (R186, R207). -/
def State.invalidatePlot (s : State) (plot mode tenant addr len : Nat) : State :=
  s.dropEntries plot (fun e => e.removed mode tenant addr len)

/-- The invalidation at the head of a task's stores completes on every plot in scope (R208). -/
def execTlbinvComplete (c : Nat) (s : State) : Host.Outcome State Fault Refusal :=
  match s.task? c with
  | none => .next s
  | some t =>
    match t.q.stores with
    | .marker id seq _ _ _ (.tlbinv mode scope tenant addr len) _ :: _ =>
      if !t.live || !t.q.markerReady id 3 || s.sampleAhead c seq then .next s
      else
        let s1 := (scopePlots scope t.plot).foldl
          (fun s p => s.invalidatePlot p mode tenant addr.toNat len.toNat) s
        .next (s1.onTask c (fun t => { t with q := t.q.popMarker id }))
    | _ => .next s

end Sys2Proof.Machine
end

