-- ==== Sys2Proof/Machine/Vector.lean ====
section
/-! DEFINITION. The register forms of the V class (06_vector, R117 to R139). -/

namespace Sys2Proof.Machine

/-! ## Elements (R117, R118, R120, R121) -/

/-- Element `i` of width `w`. -/
def elemAt (v : Vec) (w i : Nat) : Nat := bitsOf v.toNat (w * i) w

/-- The bits of an element as a register holds them: a 6-bit element has bits [7:6] zero (R35). -/
def fit (t b : Nat) : Nat := if tag6 t then b % 64 else b % 2 ^ tagWidth t

/-- Elements of one width side by side, the first lowest. -/
def packElems (w : Nat) : List Nat → Nat
  | [] => 0
  | e :: es => e % 2 ^ w + 2 ^ w * packElems w es

/-- A register of the elements of a tag; the bits above them are zero (R117). -/
def ofElems (t : Nat) (es : List Nat) : Vec := BitVec.ofNat 1024 (packElems (tagWidth t) (es.map (fit t)))

/-- The governing bit of element `i` of `n` (R118). -/
def gov (m : Mask) (n i : Nat) : Bool := m.getLsbD (if n = 256 then i / 2 else i)

/-- Whether operand E is a scalar (R120). -/
def scalarE (x : Syl) : Bool := x.lit || x.e.toNat < 64

/-- Element `i` of operand E at width `w`: of the register, or the broadcast (R120, DESIGN CHOICE, log entry 5). -/
def opElem (x : Syl) (g : Args) (w i : Nat) : Nat :=
  if scalarE x then (if w ≤ 32 then bitsOf g.e.w.toNat 0 w else (Config.broadcast64 (g.e.w.setWidth 32)).toNat)
  else elemAt g.e.v w i

/-- The format-tag fault (R34). -/
def tagFault : Stop := .fault 4 none

/-- The illegal-syllable fault. -/
def badSyllable : Stop := .fault 1 none

/-- The element count of a tag (R117). -/
def countOf (x : Syl) (t : Nat) : Nat := vecWidth x / tagWidth t

/-- The FP32 pattern of an element. -/
def pat (n : Nat) : BitVec 32 := BitVec.ofNat 32 n

/-- A form whose result is a v register with its tag. -/
def vForm (opc lat : Nat) (x : Syl) (f : Args → Task → Except Stop (Vec × Tag)) (s : State) :
    Host.Outcome State Fault Refusal :=
  run .V opc x plain (fun g s =>
    match f g s.src with
    | .error e => .error e
    | .ok r => s.putReg x.a.toNat lat r.1 r.2) s

/-- A form whose result is an s register. -/
def vsForm (opc lat : Nat) (x : Syl) (f : Args → Task → Except Stop Word) (s : State) :
    Host.Outcome State Fault Refusal :=
  run .V opc x plain (fun g s =>
    match f g s.src with
    | .error e => .error e
    | .ok r => s.putS x.a lat r) s

/-- The mask of field C. -/
def maskC (t : Task) (x : Syl) : Mask := t.regs.getK x.c.toNat

/-- An element-wise form: `ok` says which tags of B, D and E pass, the operands are the elements of B, D and E, and
masked-off elements are zero (R118). -/
def elemForm (opc lat : Nat) (x : Syl) (ok : Nat → Nat → Nat → Bool) (f : Nat → Nat → Nat → Nat → Nat) (s : State) :
    Host.Outcome State Fault Refusal :=
  vForm opc lat x (fun g t =>
    let tb := g.b.tag.toNat
    if !ok tb g.d.tag.toNat (if scalarE x then tb else g.e.tag.toNat) then .error tagFault
    else
      let w := tagWidth tb
      let n := countOf x tb
      .ok (ofElems tb ((List.range n).map (fun i =>
        if gov (maskC t x) n i then f tb (elemAt g.b.v w i) (elemAt g.d.v w i) (opElem x g w i) else 0)), g.b.tag)) s

/-- Class F in B and E. -/
def tagsF (b _ e : Nat) : Bool := classF b && b == e
/-- Class F in B alone. -/
def tagsB (b _ _ : Nat) : Bool := classF b
/-- Class F in B, D and E. -/
def tagsFFF (b d e : Nat) : Bool := classF b && b == d && b == e
/-- Class N with equal tags. -/
def tagsN (b _ e : Nat) : Bool := classN b && b == e
/-- Class I with equal tags. -/
def tagsI (b _ e : Nat) : Bool := classI b && b == e
/-- Class A, any mix. -/
def tagsA (b _ e : Nat) : Bool := classA b && classA e
/-- Class I or raw, any mix. -/
def tagsShift (b _ e : Nat) : Bool := (classI b || b == 0) && (classI e || e == 0)

/-! ## Floating-point arithmetic (R123, R124) -/

/-- The value of an FP32 element. -/
def val (n : Nat) : Num := f32 (pat n)

/-- `vadd` (R123). -/
def execVadd (x : Syl) (s : State) : Host.Outcome State Fault Refusal :=
  elemForm 0x001 4 x tagsF (fun _ a _ y => (round32 ((val a).add (val y))).toNat) s
/-- `vsub` (R123). -/
def execVsub (x : Syl) (s : State) : Host.Outcome State Fault Refusal :=
  elemForm 0x002 4 x tagsF (fun _ a _ y => (round32 ((val a).add (val y).negate)).toNat) s
/-- `vmul` (R123). -/
def execVmul (x : Syl) (s : State) : Host.Outcome State Fault Refusal :=
  elemForm 0x003 4 x tagsF (fun _ a _ y => (round32 ((val a).mul (val y))).toNat) s
/-- `vdiv` (R123, R124). -/
def execVdiv (x : Syl) (s : State) : Host.Outcome State Fault Refusal :=
  elemForm 0x004 8 x tagsF (fun _ a _ y => (round32 ((val a).div (val y))).toNat) s

/-- The smaller element by the tag (R123). -/
def minElem (t a y : Nat) : Nat :=
  if classF t then (fmin32 (pat a) (pat y)).toNat else if elemInt t y < elemInt t a then y else a
/-- The larger element by the tag (R123). -/
def maxElem (t a y : Nat) : Nat :=
  if classF t then (fmax32 (pat a) (pat y)).toNat else if elemInt t a < elemInt t y then y else a

/-- `vmin` (R123). -/
def execVmin (x : Syl) (s : State) : Host.Outcome State Fault Refusal :=
  elemForm 0x005 4 x tagsN (fun t a _ y => minElem t a y) s
/-- `vmax` (R123). -/
def execVmax (x : Syl) (s : State) : Host.Outcome State Fault Refusal :=
  elemForm 0x006 4 x tagsN (fun t a _ y => maxElem t a y) s
/-- `vfma` (R123). -/
def execVfma (x : Syl) (s : State) : Host.Outcome State Fault Refusal :=
  elemForm 0x007 4 x tagsFFF (fun _ a z y => (round32 (((val a).mul (val z)).add (val y))).toNat) s
/-- `vclamp` (R123). -/
def execVclamp (x : Syl) (s : State) : Host.Outcome State Fault Refusal :=
  elemForm 0x008 4 x tagsFFF (fun _ a z y => (fmin32 (fmax32 (pat a) (pat z)) (pat y)).toNat) s
/-- `vsqrt` (R123, R124). -/
def execVsqrt (x : Syl) (s : State) : Host.Outcome State Fault Refusal :=
  elemForm 0x009 8 x tagsB (fun _ a _ _ => (round32 (val a).sqrt).toNat) s

/-- |x| with the canonical NaN (R124). -/
def absPat (a : Nat) : BitVec 32 := if (val a).isNan then nan32 else pat a &&& 0x7FFFFFFF

/-- `vabs` (R123, R124). -/
def execVabs (x : Syl) (s : State) : Host.Outcome State Fault Refusal :=
  elemForm 0x00A 4 x tagsB (fun _ a _ _ => (absPat a).toNat) s
/-- `vneg` (R123, R124). -/
def execVneg (x : Syl) (s : State) : Host.Outcome State Fault Refusal :=
  elemForm 0x00B 4 x tagsB (fun _ a _ _ => (if (val a).isNan then nan32 else pat a ^^^ 0x80000000).toNat) s

/-! ## Integers, logic and shifts (R125, R126) -/

/-- An exact integer wrapped into an element. -/
def wrapElem (t : Nat) (v : Int) : Nat := wrapInt (tagWidth t) v

/-- An exact integer saturated into an element (R44). -/
def satElem (t : Nat) (v : Int) : Nat :=
  let b := intBounds (tagWidth t) (tagSigned t)
  wrapElem t (max b.1 (min b.2 v))

/-- `viadd` (R125). -/
def execViadd (x : Syl) (s : State) : Host.Outcome State Fault Refusal :=
  elemForm 0x010 2 x tagsI (fun t a _ y => wrapElem t (elemInt t a + elemInt t y)) s
/-- `visub` (R125). -/
def execVisub (x : Syl) (s : State) : Host.Outcome State Fault Refusal :=
  elemForm 0x011 2 x tagsI (fun t a _ y => wrapElem t (elemInt t a - elemInt t y)) s
/-- `vimul` (R125). -/
def execVimul (x : Syl) (s : State) : Host.Outcome State Fault Refusal :=
  elemForm 0x012 2 x tagsI (fun t a _ y => wrapElem t (elemInt t a * elemInt t y)) s
/-- `vsadd` (R125). -/
def execVsadd (x : Syl) (s : State) : Host.Outcome State Fault Refusal :=
  elemForm 0x013 2 x tagsI (fun t a _ y => satElem t (elemInt t a + elemInt t y)) s
/-- `vssub` (R125). -/
def execVssub (x : Syl) (s : State) : Host.Outcome State Fault Refusal :=
  elemForm 0x014 2 x tagsI (fun t a _ y => satElem t (elemInt t a - elemInt t y)) s
/-- `vand` (R126). -/
def execVand (x : Syl) (s : State) : Host.Outcome State Fault Refusal :=
  elemForm 0x020 2 x tagsA (fun _ a _ y => a &&& y) s
/-- `vor` (R126). -/
def execVor (x : Syl) (s : State) : Host.Outcome State Fault Refusal :=
  elemForm 0x021 2 x tagsA (fun _ a _ y => a ||| y) s
/-- `vxor` (R126). -/
def execVxor (x : Syl) (s : State) : Host.Outcome State Fault Refusal :=
  elemForm 0x022 2 x tagsA (fun _ a _ y => a ^^^ y) s
/-- `vandn` (R126). -/
def execVandn (x : Syl) (s : State) : Host.Outcome State Fault Refusal :=
  elemForm 0x023 2 x tagsA (fun t a _ y => a &&& (2 ^ tagWidth t - 1 - y)) s
/-- `vshl` (R126). -/
def execVshl (x : Syl) (s : State) : Host.Outcome State Fault Refusal :=
  elemForm 0x024 2 x tagsShift (fun t a _ y => a * 2 ^ (y % tagWidth t) % 2 ^ tagWidth t) s
/-- `vshr` (R126). -/
def execVshr (x : Syl) (s : State) : Host.Outcome State Fault Refusal :=
  elemForm 0x025 2 x tagsShift (fun t a _ y => a / 2 ^ (y % tagWidth t)) s
/-- `vsar` (R126). -/
def execVsar (x : Syl) (s : State) : Host.Outcome State Fault Refusal :=
  elemForm 0x026 2 x tagsShift (fun t a _ y => wrapElem t (signed (tagWidth t) a / 2 ^ (y % tagWidth t))) s

/-! ## Compares and masks (R127, R128) -/

/-- A mask of `n` bits, the others zero. -/
def maskOf (n : Nat) (f : Nat → Bool) : Mask :=
  BitVec.ofNat 128 (packElems 1 ((List.range n).map (fun i => (f i).toNat)))

/-- A compare: the governing bit of C and the relation (R127). -/
def cmpForm (opc : Nat) (x : Syl) (ok : Nat → Nat → Nat → Bool) (rel : Nat → Nat → Nat → Bool) (s : State) :
    Host.Outcome State Fault Refusal :=
  run .V opc x plain (fun g s =>
    let tb := g.b.tag.toNat
    if !ok tb 0 (if scalarE x then tb else g.e.tag.toNat) then .error tagFault
    else
      let w := tagWidth tb
      let n := countOf x tb
      .ok (s.putK x.a 2 (maskOf n (fun i =>
        gov (maskC s.src x) n i && rel tb (elemAt g.b.v w i) (opElem x g w i))))) s

/-- Equality by the tag (R127). -/
def relEq (t a y : Nat) : Bool := if classF t then (val a).eq (val y) else elemInt t a == elemInt t y
/-- Less by the tag (R127). -/
def relLt (t a y : Nat) : Bool := if classF t then (val a).lt (val y) else elemInt t a < elemInt t y
/-- Less or equal by the tag (R127). -/
def relLe (t a y : Nat) : Bool := if classF t then (val a).le (val y) else elemInt t a ≤ elemInt t y

/-- `vcmpeq` (R127). -/
def execVcmpeq (x : Syl) (s : State) : Host.Outcome State Fault Refusal := cmpForm 0x030 x tagsN relEq s
/-- `vcmpne` (R127). -/
def execVcmpne (x : Syl) (s : State) : Host.Outcome State Fault Refusal :=
  cmpForm 0x031 x tagsN (fun t a y => !relEq t a y) s
/-- `vcmplt` (R127). -/
def execVcmplt (x : Syl) (s : State) : Host.Outcome State Fault Refusal := cmpForm 0x032 x tagsN relLt s
/-- `vcmple` (R127). -/
def execVcmple (x : Syl) (s : State) : Host.Outcome State Fault Refusal := cmpForm 0x033 x tagsN relLe s
/-- `vcmpun` (R127). -/
def execVcmpun (x : Syl) (s : State) : Host.Outcome State Fault Refusal :=
  cmpForm 0x034 x tagsF (fun _ a y => (val a).isNan || (val y).isNan) s

/-- A mask form over all 128 bits (R128). -/
def kForm (opc : Nat) (x : Syl) (f : Mask → Mask → Mask) (s : State) : Host.Outcome State Fault Refusal :=
  run .V opc x plain (fun _ s =>
    .ok (s.putK x.a 2 (f (s.src.regs.getK x.b.toNat) (s.src.regs.getK x.c.toNat)))) s

/-- `kand` (R128). -/
def execKand (x : Syl) (s : State) : Host.Outcome State Fault Refusal := kForm 0x038 x (fun b c => b &&& c) s
/-- `kor` (R128). -/
def execKor (x : Syl) (s : State) : Host.Outcome State Fault Refusal := kForm 0x039 x (fun b c => b ||| c) s
/-- `kxor` (R128). -/
def execKxor (x : Syl) (s : State) : Host.Outcome State Fault Refusal := kForm 0x03A x (fun b c => b ^^^ c) s
/-- `knot` (R128). -/
def execKnot (x : Syl) (s : State) : Host.Outcome State Fault Refusal := kForm 0x03B x (fun b _ => ~~~b) s

/-- The number of set bits of a mask. -/
def maskCount (m : Mask) : Nat := ((List.range 128).filter m.getLsbD).length

/-- `kpopc` (R128). -/
def execKpopc (x : Syl) (s : State) : Host.Outcome State Fault Refusal :=
  run .V 0x03C x plain (fun _ s => s.putS x.a 2 (BitVec.ofNat 64 (maskCount (s.src.regs.getK x.b.toNat)))) s

/-! ## Moves, selection and tags (R129) -/

/-- Bits [W − 1:0] of a register. -/
def lowBits (x : Syl) (v : Vec) : Vec := BitVec.ofNat 1024 (v.toNat % 2 ^ vecWidth x)

/-- `vsel` (R129). -/
def execVsel (x : Syl) (s : State) : Host.Outcome State Fault Refusal :=
  vForm 0x040 2 x (fun g t =>
    let tb := g.b.tag.toNat
    if !(classA tb && (scalarE x || g.e.tag == g.b.tag)) then .error tagFault
    else
      let w := tagWidth tb
      let n := countOf x tb
      .ok (ofElems tb ((List.range n).map (fun i =>
        if gov (maskC t x) n i then elemAt g.b.v w i else opElem x g w i)), g.b.tag)) s

/-- `vmov` (R129). -/
def execVmov (x : Syl) (s : State) : Host.Outcome State Fault Refusal :=
  vForm 0x041 2 x (fun g _ =>
    if !classA g.b.tag.toNat then .error tagFault else .ok (lowBits x g.b.v, g.b.tag)) s

/-- `vbcast` (R129). -/
def execVbcast (x : Syl) (s : State) : Host.Outcome State Fault Refusal :=
  vForm 0x042 2 x (fun g _ =>
    if !classA g.e.tag.toNat then .error tagFault
    else .ok (ofElems 0 ((List.range (vecWidth x / 32)).map (fun _ => bitsOf g.e.w.toNat 0 32)), 0)) s

/-- One element of a register as a word: sign-extended in a signed integer format, whole for tag 36, else
zero-extended (R129). -/
def extElem (t b : Nat) : Word :=
  match elemOf t with
  | .int w true => BitVec.ofInt 64 (signed w b)
  | _ => BitVec.ofNat 64 (fit t b)

/-- `vext` (R129). -/
def execVext (x : Syl) (s : State) : Host.Outcome State Fault Refusal :=
  vsForm 0x043 8 x (fun g _ =>
    let tb := g.b.tag.toNat
    if !classA tb then .error tagFault
    else
      let j := g.e.w.toNat
      .ok (if countOf x tb ≤ j then 0 else extElem tb (elemAt g.b.v (tagWidth tb) j))) s

/-- `vtag` (R129). -/
def execVtag (x : Syl) (s : State) : Host.Outcome State Fault Refusal :=
  vForm 0x044 2 x (fun g _ =>
    if !classA g.b.tag.toNat then .error tagFault else .ok (lowBits x g.b.v, x.d.setWidth 6)) s

/-! ## Conversion and quantisation (R130 to R132) -/

/-- One element converted: bits copied between the two FP32 codes (R130). -/
def cvtElem (src dst : Nat) (nsat : Bool) (b : Nat) : Nat :=
  if (src = 3 && dst = 31) || (src = 31 && dst = 3) then b else cvtTag dst nsat (elemValue src b)

/-- `vcvt` (R130). -/
def execVcvt (x : Syl) (s : State) : Host.Outcome State Fault Refusal :=
  vForm 0x050 4 x (fun g t =>
    let tb := g.b.tag.toNat
    let td := x.d.toNat % 64
    if !(1 ≤ tb && tb ≤ 34) then .error tagFault
    else
      let n := vecWidth x / max (tagWidth tb) (tagWidth td)
      .ok (ofElems td ((List.range n).map (fun i =>
        if gov (maskC t x) n i then cvtElem tb td (x.d.getLsbD 6) (elemAt g.b.v (tagWidth tb) i) else 0)),
        x.d.setWidth 6)) s

/-- One element quantised (R131). -/
def quantElem (td : Nat) (nsat : Bool) (v sc : Num) : Nat :=
  match sc with
  | .zero _ => if v.isNan then cvtTag td nsat .nan else cvtTag td nsat (.zero v.neg?)
  | _ => cvtTag td nsat (v.div sc)

/-- `vquant` (R131). -/
def execVquant (x : Syl) (s : State) : Host.Outcome State Fault Refusal :=
  vForm 0x051 8 x (fun g t =>
    if !classF g.b.tag.toNat then .error tagFault
    else
      let n := vecWidth x / 32
      .ok (ofElems (x.d.toNat % 64) ((List.range n).map (fun i =>
        if gov (maskC t x) n i then
          quantElem (x.d.toNat % 64) (x.d.getLsbD 6) (val (elemAt g.b.v 32 i)) (f32lo g.e.w)
        else 0)), x.d.setWidth 6)) s

/-- The elements that are not masked off (R118). -/
def selected (x : Syl) (g : Args) (t : Task) : List Nat :=
  let tb := g.b.tag.toNat
  let n := countOf x tb
  ((List.range n).filter (gov (maskC t x) n)).map (elemAt g.b.v (tagWidth tb))

/-- `vamax` (R131). -/
def execVamax (x : Syl) (s : State) : Host.Outcome State Fault Refusal :=
  vsForm 0x052 8 x (fun g t =>
    if !classF g.b.tag.toNat then .error tagFault
    else .ok (((selected x g t).foldl (fun m a => fmax32 m (absPat a)) 0).setWidth 64)) s

/-- The bits of a value-index pair: VALUE low, INDEX high (R41). -/
def pairBits (p : BitVec 32 × Nat) : Nat := p.1.toNat + 2 ^ 32 * (p.2 % 2 ^ 32)

/-- The pair of 64 bits. -/
def pairOf (n : Nat) : BitVec 32 × Nat := (BitVec.ofNat 32 n, bitsOf n 32 32)

/-- `vpair` (R132). -/
def execVpair (x : Syl) (s : State) : Host.Outcome State Fault Refusal :=
  vForm 0x054 4 x (fun g _ =>
    if !(g.b.tag == 31 && (scalarE x || g.e.tag == 30)) then .error tagFault
    else .ok (ofElems 36 ((List.range (vecWidth x / 64)).map (fun i =>
      pairBits (pat (elemAt g.b.v 32 i), opElem x g 32 i))), 36)) s

/-- `vsplit` (R132). -/
def execVsplit (x : Syl) (s : State) : Host.Outcome State Fault Refusal :=
  vForm 0x055 4 x (fun g _ =>
    if g.b.tag != 36 then .error tagFault
    else .ok (ofElems 31 ((List.range (vecWidth x / 64)).map (fun i =>
      elemAt g.b.v 32 (2 * i + x.d.toNat))), if x.d == 0 then 31 else 30)) s

/-! ## Reductions and scans (R133, R134) -/

/-- The sum of elements: FP32 rounded once, integers exact (R133). -/
def sumElems (t : Nat) (es : List Nat) : Int ⊕ BitVec 32 :=
  if classF t then .inr (round32 (exactSum (es.map val))) else .inl ((es.map (elemInt t)).foldl (· + ·) 0)

/-- The largest of elements (R133). -/
def maxElems (t : Nat) (es : List Nat) : Int ⊕ BitVec 32 :=
  if classF t then .inr ((es.map pat).foldl fmax32 0xFF800000)
  else .inl ((es.map (elemInt t)).foldl max (intBounds (tagWidth t) (tagSigned t)).1)

/-- The smallest of elements (R133). -/
def minElems (t : Nat) (es : List Nat) : Int ⊕ BitVec 32 :=
  if classF t then .inr ((es.map pat).foldl fmin32 0x7F800000)
  else .inl ((es.map (elemInt t)).foldl min (intBounds (tagWidth t) (tagSigned t)).2)

/-- A reduced value in an s register (R133). -/
def redWord : Int ⊕ BitVec 32 → Word
  | .inl v => BitVec.ofInt 64 v
  | .inr b => b.setWidth 64

/-- A reduction over the elements that are not masked off (R133). -/
def redForm (opc : Nat) (x : Syl) (f : Nat → List Nat → Int ⊕ BitVec 32) (s : State) :
    Host.Outcome State Fault Refusal :=
  vsForm opc 8 x (fun g t =>
    if !classN g.b.tag.toNat then .error tagFault
    else .ok (redWord (f g.b.tag.toNat (selected x g t)))) s

/-- `vredsum` (R133). -/
def execVredsum (x : Syl) (s : State) : Host.Outcome State Fault Refusal := redForm 0x060 x sumElems s
/-- `vredmax` (R133). -/
def execVredmax (x : Syl) (s : State) : Host.Outcome State Fault Refusal := redForm 0x061 x maxElems s
/-- `vredmin` (R133). -/
def execVredmin (x : Syl) (s : State) : Host.Outcome State Fault Refusal := redForm 0x062 x minElems s

/-- A reduced value as an element. -/
def redElem (t : Nat) : Int ⊕ BitVec 32 → Nat
  | .inl v => wrapElem t v
  | .inr b => b.toNat

/-- `vscan` (R134). -/
def execVscan (x : Syl) (s : State) : Host.Outcome State Fault Refusal :=
  vForm 0x063 8 x (fun g t =>
    let tb := g.b.tag.toNat
    if !classN tb then .error tagFault
    else
      let n := countOf x tb
      .ok (ofElems tb ((List.range n).map (fun i =>
        let js := (List.range (if x.d.getLsbD 0 then i else i + 1)).filter (gov (maskC t x) n)
        let es := js.map (elemAt g.b.v (tagWidth tb))
        redElem tb (if x.d.getLsbD 1 then maxElems tb es else sumElems tb es))), g.b.tag)) s

/-! ## Special functions (R135) -/

/-- A special function of every element. -/
def fnForm (opc : Nat) (x : Syl) (f : BitVec 32 → BitVec 32) (s : State) : Host.Outcome State Fault Refusal :=
  elemForm opc 12 x tagsB (fun _ a _ _ => (f (pat a)).toNat) s

/-- `vexp` (R135). -/
def execVexp (x : Syl) (s : State) : Host.Outcome State Fault Refusal := fnForm 0x070 x exp32 s
/-- `vlog` (R135). -/
def execVlog (x : Syl) (s : State) : Host.Outcome State Fault Refusal := fnForm 0x071 x log32 s
/-- `vrcp` (R135). -/
def execVrcp (x : Syl) (s : State) : Host.Outcome State Fault Refusal := fnForm 0x072 x rcp32 s
/-- `vrsqrt` (R135). -/
def execVrsqrt (x : Syl) (s : State) : Host.Outcome State Fault Refusal := fnForm 0x073 x rsqrt32 s
/-- `vtanh` (R135). -/
def execVtanh (x : Syl) (s : State) : Host.Outcome State Fault Refusal := fnForm 0x074 x tanh32 s
/-- `vsilu` (R135). -/
def execVsilu (x : Syl) (s : State) : Host.Outcome State Fault Refusal := fnForm 0x075 x silu32 s
/-- `vgelu` (R135). -/
def execVgelu (x : Syl) (s : State) : Host.Outcome State Fault Refusal := fnForm 0x076 x gelu32 s

/-! ## Permutes (R136) -/

/-- A permute: result elements by their position from B's elements. -/
def permForm (opc : Nat) (x : Syl) (ok : Nat → Nat → Bool) (f : Args → Nat → Nat → Nat → Nat) (s : State) :
    Host.Outcome State Fault Refusal :=
  vForm opc 8 x (fun g _ =>
    let tb := g.b.tag.toNat
    if !(classA tb && ok tb g.e.tag.toNat) then .error tagFault
    else
      let n := countOf x tb
      .ok (ofElems tb ((List.range n).map (f g (tagWidth tb) n)), g.b.tag)) s

/-- `vperm` (R136). -/
def execVperm (x : Syl) (s : State) : Host.Outcome State Fault Refusal :=
  permForm 0x080 x (fun _ e => e == 30 || e == 33 || e == 34) (fun g w n i =>
    let we := tagWidth g.e.tag.toNat
    let j := elemAt g.e.v we i
    if n ≤ j || vecWidth x / we ≤ i then 0 else elemAt g.b.v w j) s
/-- `vrot` (R136). -/
def execVrot (x : Syl) (s : State) : Host.Outcome State Fault Refusal :=
  permForm 0x081 x (fun _ _ => true) (fun g w n i => elemAt g.b.v w ((i + g.e.w.toNat % n) % n)) s
/-- `vzip` (R136). -/
def execVzip (x : Syl) (s : State) : Host.Outcome State Fault Refusal :=
  permForm 0x082 x (fun b e => b == e) (fun g w _ i =>
    if i % 2 = 0 then elemAt g.b.v w (i / 2) else elemAt g.e.v w (i / 2)) s
/-- `vunzip` (R136). -/
def execVunzip (x : Syl) (s : State) : Host.Outcome State Fault Refusal :=
  permForm 0x083 x (fun b e => b == e) (fun g w n i =>
    if 2 * i < n then elemAt g.b.v w (2 * i) else elemAt g.e.v w (2 * i - n)) s

/-! ## Compaction (R137) -/

/-- `vcompress` (R137): the packed register, the count and the mask. -/
def execVcompress (x : Syl) (s : State) : Host.Outcome State Fault Refusal :=
  run .V 0x088 x plain (fun g s =>
    let tb := g.b.tag.toNat
    if !classA8 tb then .error tagFault
    else
      let n := countOf x tb
      let is := (List.range n).filter (maskC s.src x).getLsbD
      match s.putReg x.a.toNat 8 (ofElems tb (is.map (elemAt g.b.v (tagWidth tb)))) g.b.tag with
      | .error e => .error e
      | .ok s1 =>
        match s1.putS x.d 8 (BitVec.ofNat 64 is.length) with
        | .error e => .error e
        | .ok s2 => .ok (s2.putK x.c 8 (maskOf is.length (fun _ => true)))) s

/-- `vexpand` (R137). -/
def execVexpand (x : Syl) (s : State) : Host.Outcome State Fault Refusal :=
  vForm 0x089 8 x (fun g t =>
    let tb := g.b.tag.toNat
    if !classA8 tb then .error tagFault
    else
      let m := maskC t x
      .ok (ofElems tb ((List.range (countOf x tb)).map (fun i =>
        if m.getLsbD i then elemAt g.b.v (tagWidth tb) ((List.range i).filter m.getLsbD).length else 0)), g.b.tag)) s

/-! ## Selection and pruning (R138, R139) -/

/-- The best `k` pairs in rank order (R138). -/
def bestPairs (k : Nat) (ps : List (BitVec 32 × Nat)) : List (BitVec 32 × Nat) :=
  (ps.foldl (fun acc p => viInsert p acc) []).take k

/-- A register of pairs with fillers behind them (R138). -/
def pairReg (x : Syl) (ps : List (BitVec 32 × Nat)) : Vec :=
  ofElems 36 ((ps ++ List.replicate (vecWidth x / 64 - ps.length) viFiller).map pairBits)

/-- `vtopk` (R138). -/
def execVtopk (x : Syl) (s : State) : Host.Outcome State Fault Refusal :=
  vForm 0x090 16 x (fun g _ =>
    if g.b.tag == 31 then
      .ok (pairReg x (bestPairs x.d.toNat
        ((List.range (vecWidth x / 32)).map (fun i => (pat (elemAt g.b.v 32 i), i)))), 36)
    else if g.b.tag == 36 then
      .ok (pairReg x (bestPairs x.d.toNat ((List.range (vecWidth x / 64)).map (fun i => pairOf (elemAt g.b.v 64 i)))), 36)
    else .error tagFault) s

/-- Whether a magnitude ranks above another: a NaN above every number (R139). -/
def magAbove (a b : Num) : Bool := if a.isNan then !b.isNan else if b.isNan then false else b.abs.lt a.abs

/-- The indices of the `n` largest magnitudes of a group, rising (R139). -/
def keepOf (n : Nat) (vs : List Num) : List Nat :=
  let is := vs.zipIdx
  (is.filter (fun e => (is.filter (fun f => magAbove f.1 e.1 || (!magAbove e.1 f.1 && f.2 < e.2))).length < n)).map (·.2)

/-- An element that is kept: a NaN canonical (R139). -/
def keptElem (t b : Nat) : Nat := if (elemValue t b).isNan then cvtTag t false .nan else b

/-- The source tags of `vprune` (R139). -/
def pruneTag (t : Nat) : Bool := t == 1 || t == 2 || (4 ≤ t && t ≤ 29) || t == 31 || t == 32

/-- `vprune` (R139): a refused source tag is found before a broken limit of its width (DESIGN CHOICE, log entry 50). -/
def execVprune (x : Syl) (s : State) : Host.Outcome State Fault Refusal :=
  run .V 0x091 x plain (fun g s =>
    let tb := g.b.tag.toNat
    let n := countOf x tb
    let nn := x.c.toNat
    let mm := x.d.toNat
    if !pruneTag tb then .error tagFault
    else if n < mm || (tagWidth tb == 4 && mm < 2 * nn) then .error badSyllable
    else
      let kept := (List.range (n / mm)).flatMap (fun gi =>
        (keepOf nn ((List.range mm).map (fun j => elemValue tb (elemAt g.b.v (tagWidth tb) (gi * mm + j))))).map
          (fun j => (keptElem tb (elemAt g.b.v (tagWidth tb) (gi * mm + j)), j)))
      match s.putReg x.a.toNat 16 (ofElems tb (kept.map (·.1))) g.b.tag with
      | .error e => .error e
      | .ok s1 => s1.putReg x.e.toNat 16 (ofElems 33 (kept.map (·.2))) 33) s

end Sys2Proof.Machine
end

