-- ==== Sys2Proof/Machine/Acre.lean ====
section
/-! DEFINITION. The Acre: leases, bindings, products, tile forms, drains, and the events by which its commands execute
(07_acre, R147 to R170). -/

namespace Sys2Proof.Machine

/-! ## Leases (R151, R152) -/

/-- The lease token. -/
def leaseToken : Word := 0x80000000

/-- `alease` with D = 0 or 1 (R151). -/
def leaseForm (try_ : Bool) (x : Syl) (s : State) : Host.Outcome State Fault Refusal :=
  run .M 0x001 x plain (fun _ s =>
    let t := s.cur
    let uid := s.stage.uid
    let p := s.plot t.plot
    if (p.leaseOf uid).isSome || p.requests uid then s.putS x.a 1 leaseToken
    else
      let free := p.freeEntry.isSome && p.waiting.isEmpty && !p.drains (.task uid)
      match s.produce .alease x.a.toNat (if try_ && !free then s.stage.cycle + 1 else 0) 0 0 with
      | .error e => .error e
      | .ok s1 =>
        let r : LeaseReq := ⟨.task uid, t.job.prio, if x.a = 0 then none else some s.fresh⟩
        if free then .ok (s1.giveLease t.plot (p.freeEntry.getD 0) r)
        else if try_ then .ok s1
        else .ok (s1.setPlot t.plot { p with waiting := insertReq r p.waiting })) s

/-- `alease` (R151). -/
def execAlease (x : Syl) (s : State) : Host.Outcome State Fault Refusal := leaseForm false x s
/-- `alease.try` (R151). -/
def execAleaseTry (x : Syl) (s : State) : Host.Outcome State Fault Refusal := leaseForm true x s

/-- The stop of a pending command error (R164). An access to a sheaf window is such an error (DESIGN CHOICE, log entry 50). -/
def CmdErr.stop (e : CmdErr) : Stop := .record 19 e.addr e.syl none

/-- `arel` (R152): an entry whose token is not yet delivered is free only behind the token. -/
def execArel (x : Syl) (s : State) : Host.Outcome State Fault Refusal :=
  run .M 0x002 x plain (fun g s =>
    let uid := s.stage.uid
    match s.acreError uid with
    | some e => .error e.stop
    | none =>
      let plot := s.cur.plot
      match (s.plot plot).leaseOf uid with
      | none => .ok s
      | some (e, l) =>
        if !g.b.w.getLsbD 31 then .ok s
        else
          let p := s.plot plot
          let s1 := s.setPlot plot { p with leases := Tab.set p.leases e { l with releasing := true } }
          .ok (if l.cmds.isEmpty && !l.pending then s1.freeLease plot e else s1)) s

/-- The wait of `await` (R165): an error to raise ends it. -/
def waitAwait (g : Args) (s : State) : Option Stop :=
  if (s.acreError s.stage.uid).isSome || s.acreOutstanding s.stage.uid ≤ g.b.w.toNat then none else some (.block .acre)

/-- `await` (R165). -/
def execAwait (x : Syl) (s : State) : Host.Outcome State Fault Refusal :=
  runWait .M 0x035 x waitAwait plain (fun _ s =>
    match s.acreError s.stage.uid with
    | some e => .error e.stop
    | none => .ok s) s

/-! ## Issue of queued forms (R148, R149) -/

/-- The wait of a queued form: a request still outstanding, or a full command queue (R148, R149). A running command keeps its
place in the queue until it completes (DESIGN CHOICE, log entry 50). -/
def waitAcre (_ : Args) (s : State) : Option Stop :=
  let p := s.plot s.cur.plot
  match p.leaseOf s.stage.uid with
  | none => if p.requests s.stage.uid then some (.block .acre) else none
  | some (_, l) => if l.pending || 16 ≤ l.cmds.length then some (.block .acre) else none

/-- A binding applied to an operand state (R154 to R156). -/
def OperandState.bind (o : OperandState) (c : AcreCmd) : OperandState :=
  if c.opc = 0x010 then
    { o with av := true, aword := c.x, alist := if c.d / 32 % 4 = 1 then c.z else 0, ad := c.d }
  else if c.opc = 0x011 then
    { o with bv := true, bbase := c.x, bstride := getBits c.y 0 32, bd := c.d, koff := c.z.toNat }
  else if c.opc = 0x012 then { o with sv := true, sabase := c.x, sbbase := c.y, sstrides := getBits c.z 0 32 }
  else o

/-- The operand state as the commands already queued leave it. -/
def Lease.issued (l : Lease) : OperandState := l.cmds.foldl OperandState.bind l.ops

/-- A queued form issues: what it checks, and its command (R149). It takes the Furrow table along as it stands at issue (DESIGN
CHOICE, log entry 50). -/
def queuedForm (opc : Nat) (x : Syl) (cost : Args → State → Cost × Nat)
    (check : Args → Task → OperandState → Option Stop) (effect : Args → State → Except Stop State) (tile reg : Nat)
    (xyz : Args → Word × Word × Word) (s : State) : Host.Outcome State Fault Refusal :=
  runWait .M opc x waitAcre cost (fun g s =>
    let t := s.cur
    let p := s.plot t.plot
    match p.leaseOf s.stage.uid with
    | none => .error (.fault 17 none)
    | some (e, l) =>
      match check g t l.issued with
      | some st => .error st
      | none =>
        match effect g s with
        | .error st => .error st
        | .ok s1 =>
          let v := xyz g
          let c : AcreCmd := {
            id := s.fresh
            opc := opc
            syl := pack (BitVec.ofNat 10 opc) x
            d := x.d.toNat
            tile := tile
            reg := reg
            x := v.1
            y := v.2.1
            z := v.2.2
            seq := t.q.seq
            pl := t.pl
            furrow := if l.issued.ad / 32 % 4 = 2 then p.furrow else []
            since := s.stage.cycle
            sent := none }
          .ok (s1.mint.setPlot t.plot { p with
            leases := Tab.set p.leases e { l with cmds := l.cmds ++ [c] } })) s

/-- The Acre-operand fault. -/
def operandFault : Stop := .fault 18 none

/-- No effect beside the command. -/
def noEffect : Args → State → Except Stop State := fun _ s => .ok s

/-- `aidx` (R154). -/
def execAidx (x : Syl) (s : State) : Host.Outcome State Fault Refusal :=
  queuedForm 0x010 x plain (fun g _ _ =>
    if getBits g.b.w 0 56 % 64 ≠ 0 || (x.d.toNat / 32 = 1 && g.e.w.toNat % 2 ≠ 0) then some operandFault else none)
    noEffect 0 0 (fun g => (g.b.w, 0, g.e.w)) s

/-- `abind` (R155). -/
def execAbind (x : Syl) (s : State) : Host.Outcome State Fault Refusal :=
  queuedForm 0x011 x plain (fun g _ _ =>
    if g.b.w.toNat % 64 ≠ 0 || getBits g.c.w 0 32 % 64 ≠ 0 || g.e.w.toNat % 32 ≠ 0 || 2 ^ 24 ≤ g.e.w.toNat then
      some operandFault
    else none)
    (fun g s => .ok (s.onCur (fun t => { t with job := { t.job with issueKoff := g.e.w.toNat } })))
    0 0 (fun g => (g.b.w, g.c.w, g.e.w)) s

/-- `ascl` (R156). -/
def execAscl (x : Syl) (s : State) : Host.Outcome State Fault Refusal :=
  queuedForm 0x012 x plain (fun g _ _ =>
    if g.b.w.toNat % 4 ≠ 0 || g.c.w.toNat % 4 ≠ 0 || getBits g.e.w 0 16 % 4 ≠ 0 || getBits g.e.w 16 16 % 4 ≠ 0 then
      some operandFault
    else none) noEffect 0 0 (fun g => (g.b.w, g.c.w, g.e.w)) s

/-! ## Shape words (R157) -/

/-- A shape word taken apart. -/
structure Shape where
  col0 : Nat
  row0 : Nat
  n : Nat
  m : Nat
  k : Nat
deriving DecidableEq, Repr

/-- The shape of a word (R157). -/
def shapeOf (w : Word) : Shape := ⟨getBits w 39 9, getBits w 32 7, getBits w 21 9, getBits w 13 8, shapeK w⟩

/-- The limits of a shape word (R157); K only in products. -/
def Shape.ok (h : Shape) (product : Bool) : Bool :=
  h.col0 ≤ 255 && h.n ≤ 256 && h.m ≤ 128 && h.col0 + h.n ≤ 256 && h.row0 + h.m ≤ 128 && (!product || h.k ≤ 4096)

/-- Whether the window is the whole tile. -/
def Shape.whole (h : Shape) : Bool := h.m == 128 && h.n == 256

/-- The issue tag of a task's tile (R149). -/
def Task.issueTag (t : Task) (i : Nat) : Nat := t.job.issueTags.getD i 0

/-- The issue tag of a tile set. -/
def Task.setIssueTag (t : Task) (i tag : Nat) : Task :=
  { t with job := { t.job with issueTags := t.job.issueTags.set i tag } }

/-- Whether a task holds the tile of a name (R147). -/
def Task.holdsTile (t : Task) (i : Nat) : Bool := i < t.job.tiles.length

/-- The physical tile of a name. -/
def Task.physTile (t : Task) (i : Nat) : Nat := t.job.tiles.getD i 0

/-- The scaled variant of an operand tag: the length of its block along K, 0 where unscaled (R47). -/
def blockLen (t : Nat) : Nat :=
  if [5, 6, 8, 9, 11, 12, 15, 16, 19, 20, 23, 24, 26, 27].contains t then 128
  else if [13, 17, 21, 28].contains t then 32
  else 0

/-- Whether a tag is of the T128 variant (R47). -/
def tileBlock (t : Nat) : Bool := [6, 9, 12, 16, 20, 24, 27].contains t

/-- The row of R33's table that a tag 1 to 28 lies in. -/
def elemRow (t : Nat) : Nat :=
  if t ≤ 3 then t else if t ≤ 6 then 4 else if t ≤ 9 then 7 else if t ≤ 13 then 10 else if t ≤ 17 then 14
  else if t ≤ 21 then 18 else if t ≤ 24 then 22 else 25

/-- The tag rule of a product (R158). -/
def pairOk (mixed : Bool) (ta tb : Nat) : Bool :=
  if mixed then (ta == 3) == (tb == 3) else elemRow ta == elemRow tb

/-- The checks of a product's issue (R149, R154 to R158, R161); a mask address off a 64-byte boundary is an Acre-operand fault
(DESIGN CHOICE, log entry 50). -/
def productCheck (mixed accum : Bool) (tile : Nat) (shape : Word) (j0 : Nat) (mask : Word) (t : Task)
    (o : OperandState) : Option Stop :=
  let h := shapeOf shape
  let koff := t.job.issueKoff
  if !t.holdsTile tile then some (.fault 1 none)
  else if !h.ok true || koff % 32 ≠ 0 || 2 ^ 24 ≤ koff || mask.toNat % 64 ≠ 0 then some operandFault
  else if !o.av || !o.bv then some operandFault
  else if (if o.ad / 32 % 4 = 2 then 1024 else 65536) < j0 + h.m then some operandFault
  else if (blockLen (o.ad % 32) != 0 || blockLen (o.bd % 32) != 0) && !o.sv then some operandFault
  else if !pairOk mixed (o.ad % 32) (o.bd % 32) then some tagFault
  else if (accum || !h.whole) && t.issueTag tile ≠ 31 then some tagFault
  else none

/-- The charge of a product (R160, R287): the tag of B as issued gives the bytes of its stream. -/
def productCost (shape : Args → Word) (g : Args) (s : State) : Cost × Nat :=
  let h := shapeOf (shape g)
  let sb := match (s.plot s.cur.plot).leaseOf s.stage.uid with
    | some (_, l) => packedBits (l.issued.bd % 32)
    | none => 0
  (⟨0, ceilDiv (h.m * h.n * h.k) 32768, 4, 1, 0⟩, ceilDiv (h.k * h.n * sb) 512)

/-- The issue state after a product (R149, R158). -/
def Task.productIssued (t : Task) (tile : Nat) (shape : Word) (step : Bool) : Task :=
  let h := shapeOf shape
  let t1 := if h.m = 0 || h.n = 0 then t else t.setIssueTag tile 31
  { t1 with job := { t1.job with issueKoff := t.job.issueKoff + if step then h.k else 0 } }

/-- A product form (R158). -/
def productForm (opc : Nat) (mixed accum : Bool) (x : Syl) (s : State) : Host.Outcome State Fault Refusal :=
  queuedForm opc x (productCost (fun g => g.b.w))
    (fun g t o => productCheck mixed accum x.a.toNat g.b.w g.e.w.toNat 0 t o)
    (fun g s => .ok (s.onCur (fun t => t.productIssued x.a.toNat g.b.w (x.d.getLsbD 0))))
    x.a.toNat 0 (fun g => (g.b.w, 0, g.e.w)) s

/-- `amul` (R158). -/
def execAmul (x : Syl) (s : State) : Host.Outcome State Fault Refusal := productForm 0x020 false false x s
/-- `amac` (R158). -/
def execAmac (x : Syl) (s : State) : Host.Outcome State Fault Refusal := productForm 0x021 false true x s
/-- `amulm` (R158). -/
def execAmulm (x : Syl) (s : State) : Host.Outcome State Fault Refusal := productForm 0x022 true false x s
/-- `amacm` (R158). -/
def execAmacm (x : Syl) (s : State) : Host.Outcome State Fault Refusal := productForm 0x023 true true x s

/-- `apred` (R161). -/
def execApred (x : Syl) (s : State) : Host.Outcome State Fault Refusal :=
  queuedForm 0x034 x (productCost (fun g => g.b.w))
    (fun g t o => productCheck false false x.a.toNat g.b.w 0 g.c.w t o)
    (fun g s => .ok (s.onCur (fun t => t.productIssued x.a.toNat g.b.w (x.d.getLsbD 1))))
    x.a.toNat 0 (fun g => (g.b.w, g.c.w, g.e.w)) s

/-- The charge of azero, acvt, amove and astore (R160). -/
def tileCost : Args → State → Cost × Nat := fun _ _ => (⟨4, 0, 0, 1, 0⟩, 0)

/-- `azero` (R162). -/
def execAzero (x : Syl) (s : State) : Host.Outcome State Fault Refusal :=
  queuedForm 0x030 x tileCost (fun g t _ =>
    let h := shapeOf g.b.w
    if !t.holdsTile x.a.toNat then some badSyllable
    else if !h.ok false then some operandFault
    else if !h.whole && t.issueTag x.a.toNat ≠ 31 then some tagFault
    else none)
    (fun _ s => .ok (s.onCur (fun t => t.setIssueTag x.a.toNat 31)))
    x.a.toNat 0 (fun g => (g.b.w, 0, 0)) s

/-- `acvt` (R162). -/
def execAcvt (x : Syl) (s : State) : Host.Outcome State Fault Refusal :=
  queuedForm 0x031 x tileCost (fun _ t _ =>
    if !t.holdsTile x.a.toNat then some badSyllable
    else if t.issueTag x.a.toNat ≠ 31 then some tagFault
    else none)
    (fun _ s => .ok (s.onCur (fun t => t.setIssueTag x.a.toNat x.d.toNat)))
    x.a.toNat 0 (fun g => (g.b.w, 0, 0)) s

/-- Whether the issue tag of a tile suits an `amove` with target D (R162). -/
def moveTagOk (tag d : Nat) : Bool := tag == 31 || ([1, 2, 29].contains tag && tag == d)

/-- `amove` (R162): its register is empty until the data arrives. The command keeps the issue tag of its tile. -/
def execAmove (x : Syl) (s : State) : Host.Outcome State Fault Refusal :=
  queuedForm 0x032 x tileCost (fun _ t _ =>
    if !t.holdsTile x.b.toNat then some badSyllable
    else if !moveTagOk (t.issueTag x.b.toNat) x.d.toNat then some tagFault
    else none)
    (fun _ s => s.produce .amove x.a.toNat 0 0 (x.d.setWidth 6))
    x.b.toNat x.a.toNat (fun g => (BitVec.ofNat 64 (s.cur.issueTag x.b.toNat), g.c.w, 0)) s

/-- `astore` (R163). -/
def execAstore (x : Syl) (s : State) : Host.Outcome State Fault Refusal :=
  queuedForm 0x033 x tileCost (fun g t _ =>
    if !t.holdsTile x.b.toNat then some badSyllable
    else if !(shapeOf g.c.w).ok false then some operandFault
    else if t.issueTag x.b.toNat ≠ 31 then some tagFault
    else none) noEffect x.b.toNat 0 (fun g => (g.c.w, 0, g.e.w)) s

/-! ## The array (R48, R153, R159) -/

/-- Element `i` of a packed row that starts `off` bits into its bytes (R35, R36). -/
def packedAt (t off : Nat) (n i : Nat) : Nat := bitsOf n (off + packedBits t * i) (packedBits t)

/-- The bytes that hold `k` packed elements from bit `off` of the first. -/
def packedSpan (t off k : Nat) : Nat := ceilDiv (off + packedBits t * k) 8

/-- One output element (R48): rows of values, their scales by block, the block length and the accumulator. -/
def acreElement (a b : List Num) (sa sb : List Num) (len : Nat) (acc : Option (BitVec 32)) : BitVec 32 :=
  let k := a.length
  let group (g : Nat) : BitVec 32 :=
    round32 (exactSum ((((a.drop (32 * g)).take 32).zip ((b.drop (32 * g)).take 32)).map (fun e => e.1.mul e.2)))
  let block (i : Nat) : BitVec 32 :=
    let gs := (List.range (ceilDiv (min len (k - i * len)) 32)).map (fun j => group (i * len / 32 + j))
    let q := match gs with
      | [] => 0
      | g :: rest => rest.foldl (fun q g => round32 ((f32 q).add (f32 g))) g
    round32 (((f32 q).mul (sa.getD i (.fin 1 1))).mul (sb.getD i (.fin 1 1)))
  let r := (List.range (ceilDiv k len)).foldl (fun (acc : Option (BitVec 32)) i =>
    match acc with
    | none => some (block i)
    | some v => some (round32 ((f32 v).add (f32 (block i))))) acc
  r.getD 0

/-- An element of a tile. -/
def Tile.get (t : Tile) (row col : Nat) : BitVec 32 := Tab.getD t.cells (256 * row + col) 0

/-- An element of a tile written; +0 is not listed. -/
def Tile.put (t : Tile) (row col : Nat) (v : BitVec 32) : Tile :=
  { t with cells := if v = 0 then Tab.erase t.cells (256 * row + col) else Tab.set t.cells (256 * row + col) v }

/-- A window of a tile written, and its tag. -/
def Tile.window (t : Tile) (h : Shape) (vs : List (List (BitVec 32))) : Tile :=
  if h.m = 0 || h.n = 0 then t
  else
    let rows := vs.zipIdx
    let t1 := rows.foldl (fun t r =>
      r.1.zipIdx.foldl (fun t c => t.put (h.row0 + r.2) (h.col0 + c.2) c.1) t) t
    { t1 with tag := 31 }

/-- The elements of a window. -/
def Tile.values (t : Tile) (h : Shape) : List (List (BitVec 32)) :=
  (List.range h.m).map (fun m => (List.range h.n).map (fun n => t.get (h.row0 + m) (h.col0 + n)))

/-- A physical tile of a plot. -/
def Plot.tile (p : Plot) (i : Nat) : Tile := Tab.getD p.tiles i Tile.zero

/-- The K elements of one pass of the array (R159). -/
def passLen (t : Nat) : Nat :=
  if t = 3 then 16 else if t ≤ 2 then 64 else if t ≤ 9 || (22 ≤ t && t ≤ 24) then 128 else 256

/-- What executing one command needs and gives. -/
structure Done where
  tile : Option Tile
  writes : List EngWrite
  occ : Nat
  moved : Option (Vec × Tag)
  bm : Nat
deriving DecidableEq, Repr

/-- The original indices of the gathered rows (R154). -/
def State.gatherIdx (s : State) (w : Who) (ext : List Host.Cell) (o : OperandState) (furrow : Tab Nat) (j0 m : Nat) :
    Except (Nat × Nat) (List Nat × State) :=
  if o.ad / 32 % 4 = 1 then
    match s.engRead w ext (o.alist + BitVec.ofNat 64 (2 * j0)) (2 * m) with
    | .error e => .error e
    | .ok (bs, s1) => .ok ((List.range m).map (fun i => leNat ((bs.drop (2 * i)).take 2)), s1)
  else if o.ad / 32 % 4 = 2 then .ok ((List.range m).map (fun i => Tab.getD furrow (j0 + i) 0), s)
  else .ok ((List.range m).map (fun i => j0 + i), s)

/-- A gathered row read page by page: each is translated, then held against the tiller's scratchpad and its FE bit, so that the
first failing address comes first (R164). -/
def State.rowRead (s : State) (w : Who) (tiller : Nat) : List (Nat × Nat) → Except (Nat × Nat) (List Byte × State)
  | [] => .ok ([], s)
  | (va, n) :: rest =>
    match s.checkAccess w .read va n with
    | .error e => .error e
    | .ok c =>
      if !c.pieces.all (fun p => rangeOf p.pa == .scratch tiller) then .error (12, va)
      else if c.pieces.any (·.fe) then .error (13, va)
      else
        match ((s.cacheWalks w c).touch c.pieces).rowRead w tiller rest with
        | .error e => .error e
        | .ok (bs, s1) => .ok (s.readPieces [] c.pieces ++ bs, s1)

/-- The gathered rows read one after the other. -/
def State.rowReads (s : State) (w : Who) (tiller : Nat) : List (Word × Nat) → Except (Nat × Nat) (List (List Byte) × State)
  | [] => .ok ([], s)
  | (va, len) :: rest =>
    match s.rowRead w tiller (pageParts va.toNat len) with
    | .error e => .error e
    | .ok (bs, s1) =>
      match s1.rowReads w tiller rest with
      | .error e => .error e
      | .ok (all, s2) => .ok (bs :: all, s2)

/-- The scales of the rows or columns of one operand by block of the product; a longer block's scale, found at its own start, is
reused across them (R48, R156). -/
def State.scales (s : State) (w : Who) (ext : List Host.Cell) (base : Word) (stride tag koff len k : Nat)
    (keys : List Nat) : Except (Nat × Nat) (List (List Num) × State) :=
  let bl := blockLen tag
  let nb := ceilDiv k len
  if bl = 0 then .ok (keys.map (fun _ => List.replicate nb (.fin 1 1)), s)
  else
    match s.engReads w ext (keys.flatMap (fun key => (List.range nb).map (fun b =>
      (base + BitVec.ofNat 64 ((if tileBlock tag then key / 128 else key) * stride + 4 * ((koff + b * len / bl * bl) / bl)), 4)))) with
    | .error e => .error e
    | .ok (bs, s1) =>
      let vs := bs.map (fun x => f32 (BitVec.ofNat 32 (leNat x)))
      .ok ((List.range keys.length).map (fun i => (vs.drop (i * nb)).take nb), s1)

/-- The window of a product (R158). -/
def State.product (s : State) (w : Who) (tiller : Nat) (ext : List Host.Cell) (o : OperandState) (furrow : Tab Nat)
    (h : Shape) (j0 : Nat) (old : Option (List (List (BitVec 32)))) :
    Except (Nat × Nat) (List (List (BitVec 32)) × State) :=
  let ta := o.ad % 32
  let tb := o.bd % 32
  let la := blockLen ta
  let lb := blockLen tb
  let len := if la = 0 && lb = 0 then 32 else if la = 0 then lb else if lb = 0 then la else min la lb
  match s.gatherIdx w ext o furrow j0 h.m with
  | .error e => .error e
  | .ok (idx, s1) =>
    let offA := packedBits ta * o.koff
    let base := BitVec.ofNat 64 (getBits o.aword 0 56 + offA / 8)
    let stride := (getBits o.aword 56 8 + 1) * 64
    let rows := idx.map (fun j => (base + BitVec.ofNat 64 (j * stride), packedSpan ta (offA % 8) h.k))
    match s1.rowReads w tiller rows with
    | .error e => .error e
    | .ok (abs, s2) =>
        let as := abs.map (fun bs => let n := leNat bs; (List.range h.k).map (fun i =>
          elemValue ta (packedAt ta (offA % 8) n i)))
        let nmaj := o.bd / 32 % 2 = 1
        let offB := packedBits tb * o.koff
        let brows : List (Word × Nat) :=
          if nmaj then (List.range h.n).map (fun n =>
            (o.bbase + BitVec.ofNat 64 (n * o.bstride + offB / 8), packedSpan tb (offB % 8) h.k))
          else (List.range h.k).map (fun k =>
            (o.bbase + BitVec.ofNat 64 ((o.koff + k) * o.bstride), packedSpan tb 0 h.n))
        match s2.engReads w ext brows with
        | .error e => .error e
        | .ok (bbs, s3) =>
          let ns := bbs.map leNat
          let col (n : Nat) : List Num :=
            if nmaj then (List.range h.k).map (fun k => elemValue tb (packedAt tb (offB % 8) (ns.getD n 0) k))
            else (List.range h.k).map (fun k => elemValue tb (packedAt tb 0 (ns.getD k 0) n))
          match s3.scales w ext o.sabase (o.sstrides % 2 ^ 16) ta o.koff len h.k idx with
          | .error e => .error e
          | .ok (sas, s4) =>
            match s4.scales w ext o.sbbase (o.sstrides / 2 ^ 16 % 2 ^ 16) tb o.koff len h.k (List.range h.n) with
            | .error e => .error e
            | .ok (sbs, s5) =>
              .ok ((List.range h.m).map (fun m => (List.range h.n).map (fun n =>
                acreElement (as.getD m []) (col n) (sas.getD m []) (sbs.getD n []) len
                  (old.map (fun vs => (vs.getD m []).getD n 0)))), s5)

/-- The occupancy of a product without the start of an idle array (R159). -/
def productOcc (o : OperandState) (h : Shape) (accum : Bool) : Nat :=
  if h.m = 0 || h.n = 0 || (h.k = 0 && accum) then 4
  else if h.k = 0 then 8 + h.m
  else ceilDiv h.k (min (passLen (o.ad % 32)) (passLen (o.bd % 32))) * h.m

/-- The new window of a product; none where it writes nothing (R158). -/
def State.productWindow (s : State) (w : Who) (tiller : Nat) (ext : List Host.Cell) (o : OperandState) (c : AcreCmd)
    (j0 : Nat) (accum : Bool) (t : Tile) : Except (Nat × Nat) (Option (List (List (BitVec 32))) × State) :=
  let h := shapeOf c.x
  if h.m = 0 || h.n = 0 then .ok (none, s)
  else if h.k = 0 then .ok (some (if accum then t.values h else List.replicate h.m (List.replicate h.n 0)), s)
  else
    match s.product w tiller ext o c.furrow h j0 (if accum then some (t.values h) else none) with
    | .error e => .error e
    | .ok (vs, s1) => .ok (some vs, s1)

/-- 32 bytes of a mask (R161). -/
def maskBytes (bs : List Bool) : List Byte := toLe 32 (packElems 1 (bs.map Bool.toNat))

/-- The mask rows of `apred` (R161). -/
def predMask (row : Bool) (th : BitVec 32) (h : Shape) (vs : List (List (BitVec 32))) : List Byte :=
  let hit (m n : Nat) : Bool := (f32 th).lt (f32 ((vs.getD m []).getD n 0))
  if row then (List.range h.m).flatMap (fun m => maskBytes ((List.range h.n).map (hit m)))
  else maskBytes ((List.range h.n).map (fun n => (List.range h.m).any (fun m => hit m n)))

/-- A product or predictor product executed (R158, R161). -/
def State.runProduct (s : State) (w : Who) (tiller : Nat) (ext : List Host.Cell) (o : OperandState) (c : AcreCmd)
    (t : Tile) : Except (Nat × Nat) (Done × State) :=
  let h := shapeOf c.x
  let pred := c.opc = 0x034
  let accum := c.opc = 0x021 || c.opc = 0x023
  match s.productWindow w tiller ext o c (if pred then 0 else c.z.toNat) accum t with
  | .error e => .error e
  | .ok (r, s1) =>
    let t' := match r with | some vs => t.window h vs | none => t
    if !pred then .ok (⟨some t', [], productOcc o h accum, none, 0⟩, s1)
    else
      let bs := predMask (c.d % 2 = 1) (c.z.setWidth 32) h (t'.values h)
      match s1.engTarget w ext false c.y bs.length with
      | .error e => .error e
      | .ok (ps, s2) => .ok (⟨some t', [⟨c.y, ps, bs⟩], productOcc o h accum + 8, none, 0⟩, s2)

/-- `amove` executed (R162): what its tile's issue tag says is FP32 is converted. -/
def moveData (c : AcreCmd) (t : Tile) : Vec × Tag :=
  let w := tagWidth c.d
  let row := getBits c.y 0 7
  let c0 := getBits c.y 8 8
  let el (col : Nat) : Nat :=
    if 255 < col then 0
    else if c.x.toNat = 31 then cvtTag c.d false (f32 (t.get row col))
    else (t.get row col).toNat % 2 ^ w
  if 64 ≤ c.reg then (ofElems c.d ((List.range (1024 / w)).map (fun i => el (c0 + i))), BitVec.ofNat 6 c.d)
  else (vec (if c.d = 29 then BitVec.ofInt 64 (signed 32 (el c0)) else BitVec.ofNat 64 (el c0)), 0)

/-- `acvt` executed (R162). -/
def cvtTile (c : AcreCmd) (t : Tile) : Tile :=
  let sc := f32lo c.x
  let f (v : BitVec 32) : BitVec 32 := BitVec.ofNat 32 (cvtTag c.d false ((f32 v).mul sc))
  let z := f 0
  let cells : Tab (BitVec 32) :=
    if z = 0 then (Tab.mapVal t.cells (fun _ v => f v)).filter (fun e => e.2 != 0)
    else ((List.range (128 * 256)).map (fun i => (i, f (Tab.getD t.cells i 0)))).filter (fun e => e.2 != 0)
  ⟨c.d, cells⟩

/-- The activation of a drain (R163). -/
def activate (act : Nat) (y : BitVec 32) : BitVec 32 :=
  if act = 1 then
    (match f32 y with
     | .nan => nan32
     | .zero _ => 0
     | v => if v.neg? then 0 else y)
  else if act = 2 then silu32 y
  else if act = 3 then gelu32 y
  else if act = 4 then tanh32 y
  else y

/-- Packed elements as bytes; the rest of the last byte or group is zero (R36). -/
def packRow (t : Nat) (es : List Nat) : List Byte := toLe (packedBytes t es.length) (packElems (packedBits t) es)

/-- `astore` executed (R163). Where its descriptor is invalid and no address has failed, the descriptor's address is recorded
(DESIGN CHOICE, log entry 50). -/
def State.runStore (s : State) (w : Who) (ext : List Host.Cell) (c : AcreCmd) (t : Tile) :
    Except (Nat × Nat × Nat) (Done × State) :=
  let h := shapeOf c.x
  let bad (bm : Nat) (e : Nat × Nat) : Nat × Nat × Nat := (e.1, e.2, bm)
  if c.z.toNat % 32 ≠ 0 then .error (6, c.z.toNat, 0)
  else
    match s.engRead w ext c.z 32 with
    | .error e => .error (bad 0 e)
    | .ok (d, s1) =>
      let dest := wordAt d 0
      let otag := getBits (wordAt d 8) 32 8
      let nsat := (wordAt d 8).getLsbD 40
      let stride := getBits (wordAt d 8) 0 32
      let bias := wordAt d 16
      let useBias := c.d / 8 % 2 = 1
      if !([1, 2, 4, 7, 10, 14, 18, 22, 25, 29, 31].contains otag) then .error (12, c.z.toNat, 0)
      else
        let bm := ceilDiv (h.m * h.n * packedBits otag) 512
        if dest.toNat % 64 ≠ 0 || stride % 64 ≠ 0 || stride < packedBytes otag h.n || (useBias && bias.toNat % 4 ≠ 0) then
          .error (12, c.z.toNat, bm)
        else
          match s1.engRead w ext (bias + BitVec.ofNat 64 (4 * h.col0)) (if useBias && h.m != 0 then 4 * h.n else 0) with
          | .error e => .error (bad bm e)
          | .ok (bb, s2) =>
            let out (m n : Nat) : Nat :=
              let y := t.get (h.row0 + m) (h.col0 + n)
              let y1 := if useBias then round32 ((f32 y).add (f32 (BitVec.ofNat 32 (leNat ((bb.drop (4 * n)).take 4))))) else y
              cvtTag otag nsat (f32 (activate (c.d % 8) y1))
            match s2.engTargets w ext false ((List.range h.m).map (fun m =>
              (dest + BitVec.ofNat 64 (m * stride), packRow otag ((List.range h.n).map (out m))))) with
            | .error e => .error (bad bm e)
            | .ok (ws, s3) => .ok (⟨none, ws, 32 + h.m * ceilDiv h.n 64, none, bm⟩, s3)

/-- One command of a task executed on the array: what it gives, or where it fails and the BM it is charged. -/
def State.runCmd (s : State) (w : Who) (tiller : Nat) (ext : List Host.Cell) (o : OperandState) (c : AcreCmd)
    (t : Tile) : Except (Nat × Nat × Nat) (Done × State) :=
  if c.opc ≤ 0x012 then .ok (⟨none, [], 0, none, 0⟩, s)
  else if c.opc ≤ 0x023 || c.opc = 0x034 then
    match s.runProduct w tiller ext o c t with
    | .error e => .error (e.1, e.2, 0)
    | .ok r => .ok r
  else if c.opc = 0x030 then
    let h := shapeOf c.x
    let t1 := t.window h (List.replicate h.m (List.replicate h.n 0))
    .ok (⟨some { t1 with tag := 31 }, [], 8 + h.m, none, 0⟩, s)
  else if c.opc = 0x031 then .ok (⟨some (cvtTile c t), [], 136, none, 0⟩, s)
  else if c.opc = 0x032 then .ok (⟨none, [], 16, some (moveData c t), 0⟩, s)
  else s.runStore w ext c t

/-- Whether a command accesses memory, and so waits for the task's earlier accesses (R166). -/
def AcreCmd.touches (c : AcreCmd) : Bool :=
  (0x020 ≤ c.opc && c.opc ≤ 0x023) || c.opc == 0x033 || c.opc == 0x034

/-- Whether a command counts toward the quantum (R153). -/
def AcreCmd.counts (c : AcreCmd) : Bool := 0x020 ≤ c.opc

/-- Whether a command is a product that runs through the array, and so pays for an idle one (R159). -/
def AcreCmd.fillsArray (c : AcreCmd) : Bool :=
  let h := shapeOf c.x
  ((0x020 ≤ c.opc && c.opc ≤ 0x023) || c.opc == 0x034) && h.m != 0 && h.n != 0 && h.k != 0

/-- The first cycle in which a command can hold the array. -/
def Plot.startOf (p : Plot) (c : AcreCmd) : Nat := max p.endedAt (c.since + 1)

/-- Whether the quantum of the running lease goes on (R153). -/
def Plot.inQuantum (p : Plot) : Option Nat :=
  match p.running with
  | none => none
  | some e =>
    if (Tab.get? p.leases e).any (fun l => !l.cmds.isEmpty) && p.quantum.1 < 64 && p.quantum.2 < 16384 then some e else none

/-- The lease that the Acre chooses (R153). -/
def Plot.choose (p : Plot) : Option Nat :=
  let cs := p.leases.filter (fun e => !e.2.cmds.isEmpty)
  let top := (cs.map (·.2.prio)).foldl max 0
  ((List.range 8).map (fun i => (p.lastEntry + 1 + i) % 8)).find? (fun e => cs.any (fun c => c.1 == e && c.2.prio == top))

/-- A quantum begun by a lease, where the last has ended. -/
def Plot.begin (p : Plot) : Plot :=
  match p.inQuantum with
  | some _ => p
  | none =>
    match p.choose with
    | none => { p with running := none }
    | some e => { p with running := some e, lastEntry := e, quantum := (0, 0) }

/-- A command error recorded in a lease (R164): the rest of its queue is discarded. -/
def State.recordAcre (s : State) (plot entry : Nat) (va : Nat) (syl : Word) : State :=
  let s1 := s.discardCmds plot entry
  let p := s1.plot plot
  match Tab.get? p.leases entry with
  | none => s1
  | some l =>
    s1.setPlot plot { p with
      leases := Tab.set p.leases entry { l with err := some (l.err.getD ⟨BitVec.ofNat 64 va, syl⟩) } }

/-- A plot after a command that held the array from `start` on and is done now, `occ` telling whether it held it at all (R153,
R159, R300). A quantum ends with an empty queue. -/
def State.accountAcre (s : State) (plot entry : Nat) (holder : Holder) (counts : Bool) (start occ : Nat) : State :=
  let p := s.plot plot
  let used := if occ = 0 then 0 else s.cycle + 1 - start
  let more := (Tab.get? p.leases entry).any (fun l => !l.cmds.isEmpty)
  let p1 := { p with
    quantum := (p.quantum.1 + (if counts then 1 else 0), p.quantum.2 + used)
    lastEntry := entry
    lastHolder := if occ = 0 then p.lastHolder else some holder
    endedAt := if occ = 0 then p.endedAt else s.cycle + 1
    running := if more then p.running else none
    began := none }
  ((s.setPlot plot p1).bumpPlot plot 0 used).bumpPlot plot 1

/-- When a command with an occupancy is done, given the cycle from which it can hold the array: it begins, it goes on, or it is
complete (R159). -/
inductive ArrayTurn where
  | begins
  | wait
  | done (start : Nat)
deriving DecidableEq, Repr

/-- The turn of the running command; an idle array adds its start where the command fills the array (R159). -/
def Plot.turn (p : Plot) (now first occ : Nat) (fills : Bool) (holder : Holder) : ArrayTurn :=
  match p.began with
  | none => if occ = 0 then .done now else if now < first then .wait else .begins
  | some b =>
    let full := if fills && (p.endedAt < b || p.lastHolder != some holder) then occ + 64 else occ
    if now + 1 < b + full then .wait else .done b

/-- A command of a task that has failed: the error is recorded (R164). -/
def State.failCmd (s : State) (plot entry uid : Nat) (c : AcreCmd) (start va bm : Nat) : State :=
  ((s.onTask uid (fun t => t.charge s.cycle 0 bm)).recordAcre plot entry va c.syl).accountAcre plot entry (.task uid) c.counts start 4

/-- A command whose writes are made, but behind the fabric not all acknowledged, stays at the head of its queue (R165). -/
def State.awaitCmd (s : State) (plot entry : Nat) (l : Lease) (span : Nat × Nat) : State :=
  let sent : List AcreCmd := match l.cmds with
    | c :: rest => { c with sent := some span } :: rest
    | [] => []
  let p := s.plot plot
  s.setPlot plot { p with leases := Tab.set p.leases entry { l with cmds := sent } }

/-- A command of a task that is done: its writes, its tile, and the data on its way to a register. It is complete then, or once its
writes are at home. An aborted task's tile writes are discarded (R169). -/
def State.finishCmd (s : State) (plot entry uid : Nat) (t : Task) (l : Lease) (c : AcreCmd) (d : Done) (start : Nat) : State :=
  let s1 := s.engWrite t.no d.writes
  let span := (s.fresh, s1.fresh)
  let s2 := match d.tile with
    | some x =>
      if t.phase = Phase.aborted then s1
      else s1.setPlot plot { s1.plot plot with tiles := Tab.set (s1.plot plot).tiles (t.physTile c.tile) x }
    | none => s1
  let s3 := s2.onTask uid (fun t =>
    let t1 := t.charge s.cycle 0 d.bm
    match d.moved with
    | some v => t1.moved c.id v.1 v.2
    | none => t1)
  if s1.unacked span then s3.awaitCmd plot entry l span else s3.accountAcre plot entry (.task uid) c.counts start d.occ

/-- The entry of an aborted task is free behind its last command, and the task may leave (R169). -/
def State.reapAcre (s : State) (plot entry uid : Nat) : State :=
  if (s.task? uid).any (fun (t : Task) => t.phase == Phase.aborted) then (s.freeLease plot entry).leaveDrained uid else s

/-- A command whose writes behind the fabric have all been answered is complete, or has failed where one was lost (R164, R165). -/
def State.landCmd (s : State) (plot entry uid : Nat) (c : AcreCmd) (start : Nat) : State :=
  let span := c.sent.getD (0, 0)
  (match s.lostIn span with
    | some w => (s.noted span).failCmd plot entry uid c start w.va.toNat 0
    | none => (s.noted span).accountAcre plot entry (.task uid) c.counts start 4).reapAcre plot entry uid

/-- The Acre executes the next queued command of the running lease (R148, R153, R158 to R166). A command that touches memory
waits for its task's accesses before it holds the array, and completes once its occupancy has passed. Behind a recorded error
what is queued is discarded (R164). -/
def execAcreCommandExecute (plot : Nat) (ext : List Host.Cell) (s : State) : Host.Outcome State Fault Refusal :=
  let p := (s.plot plot).begin
  match p.running.bind (fun e => (Tab.get? p.leases e).map (fun l => (e, l))) with
  | none => .next s
  | some (e, l) =>
    match l.cmds, l.holder with
    | c :: rest, .task uid =>
      match s.task? uid with
      | none => .next s
      | some t =>
        let ops : OperandState := { l.ops.bind c with koff := (l.ops.bind c).koff + c.step }
        let s0 := s.setPlot plot { p with leases := Tab.set p.leases e { l with cmds := rest, ops := ops } }
        if l.err.isSome then .next ((s.setPlot plot p).discardCmds plot e)
        else if p.began.isNone && c.touches && !t.homeBelow c.seq then .next s
        else if c.sent.isSome then .next (if c.sent.any s.unacked then s else s0.landCmd plot e uid c (p.began.getD s.cycle))
        else
          let begun : State := s.setPlot plot { p with began := some s.cycle }
          match s0.runCmd (t.engine c.pl) t.tiller ext l.ops c (p.tile (t.physTile c.tile)) with
          | .error (code, va, bm) =>
            if code = heldCode then .next (s.holdAt (t.engine c.pl) va)
            else
              match p.turn s.cycle (p.startOf c) 4 false l.holder with
              | .begins => .next begun
              | .wait => .next s
              | .done start =>
                .next (((s0.logLost (t.engine c.pl) ext t.no code va).failCmd plot e uid c start va bm).reapAcre plot e uid)
          | .ok (d, s1) =>
            match p.turn s.cycle (p.startOf c) d.occ c.fillsArray l.holder with
            | .begins => .next begun
            | .wait => .next s
            | .done start => .next ((s1.finishCmd plot e uid t l c d start).reapAcre plot e uid)
    | _, _ => .next s

/-- A quantum ends, and the Acre chooses the next lease (R153). -/
def execAcreQuantumEnd (plot : Nat) (s : State) : Host.Outcome State Fault Refusal :=
  match (s.plot plot).running, (s.plot plot).inQuantum with
  | some _, none => .next (s.setPlot plot (s.plot plot).begin)
  | _, _ => .next s

/-- The lease table grants a waiting request, or delivers a token (R151). -/
def execAleaseGrant (plot : Nat) (s : State) : Host.Outcome State Fault Refusal :=
  let s1 := s.grantNext plot
  let p := s1.plot plot
  match p.leases.find? (fun e => e.2.pending) with
  | none => .next s1
  | some (e, l) =>
    let s2 := s1.setPlot plot { p with leases := Tab.set p.leases e { l with pending := false, token := none } }
    .next (match l.holder, l.token with
      | .task uid, some id => s2.onTask uid (fun t => t.fill id (vec leaseToken) 0)
      | _, _ => s2)

/-- A releasing lease whose queue has drained becomes free (R152). -/
def execLeaseEntryFree (plot entry : Nat) (s : State) : Host.Outcome State Fault Refusal :=
  match Tab.get? (s.plot plot).leases entry with
  | some l => if l.releasing && l.cmds.isEmpty && !l.pending then .next (s.freeLease plot entry) else .next s
  | none => .next s

/-- The data of an `amove` reaches the tiller and fills its register (R162). -/
def execAmoveFill (c : Nat) (s : State) : Host.Outcome State Fault Refusal :=
  match s.task? c with
  | none => .next s
  | some t =>
    match t.flow.producers.find? (fun p => p.kind == .amove && p.data.isSome) with
    | some p =>
      match p.data with
      | some v => .next (s.onTask c (fun t => t.fill p.id v.1 v.2))
      | none => .next s
    | none => .next s

end Sys2Proof.Machine
end

