-- ==== Sys2Proof/Machine/Drill.lean ====
section
/-! DEFINITION. Completion maps and the Drill (R231 to R245): the M forms, `cwait` and `ctest`, `furrow`, and the events by
which commands start, transfer and complete. -/

namespace Sys2Proof.Machine

/-! ## Chunk selectors (R232) -/

/-- Whether a selector keeps R232: a range within the map. -/
def selectorOk (e : Word) : Bool := e.getLsbD 63 || getBits e 0 9 + getBits e 9 10 ≤ 512

/-- The chunks that a selector selects. -/
def selectorBits (e : Word) : BitVec 512 :=
  if e.getLsbD 63 then BitVec.ofNat 512 (getBits e 0 48 * 2 ^ getBits e 48 9)
  else BitVec.ofNat 512 ((2 ^ getBits e 9 10 - 1) * 2 ^ getBits e 0 9)

/-- Whether a map holds every selected bit. -/
def CMap.meets (m : CMap) (e : Word) : Bool := m.bits &&& selectorBits e == selectorBits e

/-! ## Issue (R231, R237, R238, R242, R264) -/

/-- The Drill-command fault. -/
def drillFault : Stop := .fault 21 none

/-- The fault of a recorded Drill error (R244). -/
def MapErr.stop (e : MapErr) (n : Nat) : Stop := .record e.code e.addr e.syl (some n)

/-- Entries of a Drill queue: markers take none (R225). -/
def Tiller.drillDepth (x : Tiller) : Nat := (x.drill.filter (fun c => c.kind != .marker)).length

/-- The wait of a form that pushes a command (R225). -/
def waitDrill (_ : Args) (s : State) : Option Stop :=
  if 16 ≤ (s.tiller s.cur.tiller).drillDepth then some (.block .drill) else none

/-- Whether a map may be named by the task on the stage: its own, or nobody's (R231). -/
def State.mapFree (s : State) (n : Nat) : Bool :=
  let m := (s.tiller s.cur.tiller).map n
  m.owner.isNone || m.owner == some s.stage.uid

/-- A command queued: its map is owned, and it counts as outstanding (R231). -/
def State.pushDrill (s : State) (c : DrillCmd) : State :=
  let tl := s.cur.tiller
  let x := s.tiller tl
  let m := x.map c.map
  let x' : Tiller := { x with drill := x.drill ++ [c] }
  ((s.setTiller tl (x'.setMap c.map { m with owner := some s.stage.uid, outstanding := m.outstanding + 1 })).onCur
    (fun t => t.begin c.id)).mint

/-- A command with the operand values read at issue (R226). -/
def State.drillCmd (s : State) (kind : DrillKind) (map : Nat) (x y z : Word) (hint : Nat) (syl : Word) : DrillCmd where
  id := s.fresh
  kind := kind
  uid := s.stage.uid
  tenant := s.cur.tenant
  pl := s.cur.pl
  map := map
  x := x
  y := y
  z := z
  hint := hint
  syl := syl
  seq := s.cur.q.seq
  started := false
  prog := []
  mask := []
  next := 0
  done := 0
  blocks := 0
  buf := []
  csum := BitVec.allOnes 32
  pages := []
  span := []
  summed := false
  rows := []
  flight := []
  failed := none

/-- Whether some of `n` bytes at an address, or the address itself, lies in the context region (R181). -/
def inContextRegion (a : Word) (n : Nat) : Bool := contextRegion < a.toNat + max n 1 && a.toNat < 2 ^ 56

/-- `copy` (R237). -/
def execCopy (x : Syl) (s : State) : Host.Outcome State Fault Refusal :=
  runWait .M 0x040 x waitDrill (fun g _ => memCost (ceilDiv (getBits g.e.w 0 20) 64)) (fun g s =>
    let len := getBits g.e.w 0 20
    let c0 := getBits g.e.w 20 9
    let n := x.d.toNat
    if !s.mapFree n then .error drillFault
    else if 262144 < len || getBits g.e.w 29 35 != 0 || 512 < c0 + ceilDiv len 512 then .error drillFault
    else if inContextRegion g.c.w len then .error (.fault 14 (some g.c.w))
    else if inContextRegion g.b.w len then .error (.fault 14 (some g.b.w))
    else if len = 0 then
      let tl := s.cur.tiller
      let y := s.tiller tl
      .ok (s.setTiller tl (y.setMap n { y.map n with owner := some s.stage.uid }))
    else
      let c := s.drillCmd .copy n g.b.w g.c.w g.e.w x.ch.toNat (pack 0x040 x)
      .ok (s.pushDrill { c with span := (List.range (ceilDiv len 512)).map (c0 + ·), summed := true })) s

/-- `drill` and `drw`. -/
def programForm (opc : BitVec 10) (kind : DrillKind) (x : Syl) (s : State) : Host.Outcome State Fault Refusal :=
  runWait .M opc.toNat x waitDrill plain (fun g s =>
    if g.b.w.toNat % 64 ≠ 0 then .error (.fault 6 (some g.b.w))
    else if !s.mapFree x.d.toNat then .error drillFault
    else .ok (s.pushDrill (s.drillCmd kind x.d.toNat g.b.w 0 g.e.w 0 (pack opc x)))) s

/-- `drill` (R238). -/
def execDrill (x : Syl) (s : State) : Host.Outcome State Fault Refusal := programForm 0x041 .drill x s
/-- `drw` (R242). -/
def execDrw (x : Syl) (s : State) : Host.Outcome State Fault Refusal := programForm 0x042 .drw x s

/-- `furrow` (R264): the rows of the Furrow table as they stand. -/
def execFurrow (x : Syl) (s : State) : Host.Outcome State Fault Refusal :=
  runWait .C 0x04A x waitDrill plain (fun g s =>
    let j0 := getBits g.c.w 0 10
    let n := getBits g.c.w 10 11
    if 1024 < j0 + n then .error (.fault 24 none)
    else if !s.mapFree x.d.toNat then .error drillFault
    else
      let f := (s.plot s.cur.plot).furrow
      let c := s.drillCmd .furrow x.d.toNat g.b.w 0 g.c.w 0 (pack 0x04A x)
      .ok (s.pushDrill { c with rows := (List.range n).map (fun i => Tab.getD f (j0 + i) 0), summed := true })) s

/-! ## Waits on maps (R233 to R235) -/

/-- The wait of `cwait` (R233). -/
def waitCwait (n : Nat) (g : Args) (s : State) : Option Stop :=
  let m := (s.tiller s.cur.tiller).map n
  if selectorOk g.e.w && m.owner == some s.stage.uid && !m.meets g.e.w && m.outstanding != 0 then some (.block .drill)
  else none

/-- `cwait` (R233). A bundle that has just queued the command it waits for does not issue. -/
def execCwait (x : Syl) (s : State) : Host.Outcome State Fault Refusal :=
  let n := x.b.toNat
  runWait .C 0x040 x (waitCwait n) plain (fun g s =>
    let m := (s.tiller s.cur.tiller).map n
    if !selectorOk g.e.w || m.owner != some s.stage.uid then .error drillFault
    else if !m.meets g.e.w && m.outstanding != 0 then .error (.block .drill)
    else
      match m.err with
      | some e => .error (e.stop n)
      | none => if m.meets g.e.w then .ok s else .error drillFault) s

/-- `ctest` (R234). -/
def execCtest (x : Syl) (s : State) : Host.Outcome State Fault Refusal :=
  let n := x.b.toNat
  run .C 0x041 x plain (fun g s =>
    if !selectorOk g.e.w then .error drillFault
    else
      let m := (s.tiller s.cur.tiller).map n
      let own := m.owner == some s.stage.uid
      .ok (s.putP x.a 1 ((if own then m else CMap.zero).meets g.e.w))) s

/-- The maps of a tiller that a task owns. -/
def Tiller.owned (x : Tiller) (uid : Nat) : List Nat := (x.maps.filter (fun e => e.2.owner == some uid)).map (·.1)

/-- The first recorded error of maps (R244). -/
def Tiller.firstErr (x : Tiller) (ns : List Nat) : Option (Nat × MapErr) :=
  ns.findSome? (fun n => (x.map n).err.map (fun e => (n, e)))

/-- Maps cleared and released (R231, R235). -/
def Tiller.release (x : Tiller) (ns : List Nat) : Tiller :=
  { x with maps := x.maps.filter (fun e => !ns.contains e.1) }

/-- The maps that a drain acts on: the one it names where the task owns it, or all that the task owns (R235). -/
def State.drained (s : State) (all : Bool) (n : Nat) : List Nat :=
  ((s.tiller s.cur.tiller).owned s.stage.uid).filter (fun m => all || m == n)

/-- The wait of a drain (R235). -/
def waitDrain (all : Bool) (n : Nat) (_ : Args) (s : State) : Option Stop :=
  if (s.drained all n).any (fun m => ((s.tiller s.cur.tiller).map m).outstanding != 0) then some (.block .drill) else none

/-- A drain: the recorded error raised, or the maps cleared and released. -/
def drainForm (all : Bool) (x : Syl) (s : State) : Host.Outcome State Fault Refusal :=
  let n := x.d.toNat % 64
  runWait .M 0x043 x (waitDrain all n) plain (fun g s =>
    let tl := s.cur.tiller
    let y := s.tiller tl
    let ns := s.drained all n
    if !all && !s.mapFree n then .error drillFault
    else
      match waitDrain all n g s with
      | some st => .error st
      | none =>
        match y.firstErr ns with
        | some (m, e) => .error (e.stop m)
        | none => .ok (s.setTiller tl (y.release ns))) s

/-- `drain` (R235). -/
def execDrain (x : Syl) (s : State) : Host.Outcome State Fault Refusal := drainForm false x s
/-- `drain.all` (R235). -/
def execDrainAll (x : Syl) (s : State) : Host.Outcome State Fault Refusal := drainForm true x s

/-! ## Accesses of a command (R186, R243, R244) -/

/-- The maker of a command's accesses. -/
def DrillCmd.who (c : DrillCmd) (tl : Nat) : Who := { plot := tl / 4, tenant := c.tenant, pl := c.pl }

/-- The hint of a command's accesses (R59, R243). -/
def DrillCmd.ch (c : DrillCmd) : Nat := if c.kind == .copy then c.hint else 0

/-- One page of a command's access: the translation that the page was first given is kept, for the whole page of its leaf
(R186). -/
def State.drillPage (s : State) (w : Who) (k : Acc) (c : DrillCmd) (va : Nat) :
    Except Nat (Nat × Word × DrillCmd × State) :=
  match c.pages.find? (fun p => p.1 == va / 2 ^ leafBits p.2.2 p.2.1) with
  | some (_, pte, level) =>
    let pa := pteFrame pte + va % 2 ^ leafBits level pte
    match s.permit w k level pte pa with
    | some code => .error code
    | none => .ok (pa, pte, c, s)
  | none =>
    match s.check w k va with
    | .error code => .error code
    | .ok (pa, pte, es) =>
      let level := (es.getLast?.map (·.1)).getD 0
      .ok (pa, pte, { c with pages := c.pages ++ [(va / 2 ^ leafBits level pte, pte, level)] }, s.cacheWalk w va es)

/-- An access of a command by pages: its pieces, or the failure of R244 with its address, or `heldCode`. A sync page is no
source. An access to a sheaf window is a Drill error too (DESIGN CHOICE, log entry 15). -/
def State.drillParts (w : Who) (k : Acc) (ext : List Host.Cell) :
    List (Nat × Nat) → DrillCmd → State → Except (Nat × Nat) (List Piece × DrillCmd × State)
  | [], c, s => .ok ([], c, s)
  | (va, n) :: rest, c, s =>
    match s.drillPage w k c va with
    | .error _ => .error (21, va)
    | .ok (pa, pte, c1, s1) =>
      let p : Piece := ⟨s1.localAddr pa, n, pteFe pte, policyOf c.ch pte⟩
      match s1.engFail ext (k == .write) 0 [p] with
      | some (code, off) => .error (if code = heldCode then heldCode else if code = 16 then 22 else 21, va + off)
      | none =>
        match State.drillParts w k ext rest c1 (if k == .write then s1 else s1.touch [p]) with
        | .error e => .error e
        | .ok (ps, c2, s2) => .ok (p :: ps, c2, s2)

/-- A read of a command. -/
def State.drillRead (s : State) (tl : Nat) (ext : List Host.Cell) (c : DrillCmd) (va : Word) (len : Nat) :
    Except (Nat × Nat) (List Byte × DrillCmd × State) :=
  match State.drillParts (c.who tl) .read ext (pageParts va.toNat len) c s with
  | .error e => .error e
  | .ok (ps, c1, s1) => .ok (s1.readPieces ext ps, c1, s1)

/-- Writes of a command resolved one after the other. -/
def State.drillTargets (tl : Nat) (ext : List Host.Cell) :
    List (Word × List Byte) → DrillCmd → State → Except (Nat × Nat) (List EngWrite × DrillCmd × State)
  | [], c, s => .ok ([], c, s)
  | (va, bs) :: rest, c, s =>
    match State.drillParts (c.who tl) .write ext (pageParts va.toNat bs.length) c s with
    | .error e => .error e
    | .ok (ps, c1, s1) =>
      match State.drillTargets tl ext rest c1 s1 with
      | .error e => .error e
      | .ok (all, c2, s2) => .ok (⟨va, ps, bs⟩ :: all, c2, s2)

/-! ## Drill programs (R238 to R241) -/

/-- A Drill program: strides of the source and the destination and the count of each level, innermost first. -/
structure Program where
  src : Word
  dst : Word
  micro : Word
  shape : Word
  maskAddr : Word
  scaleAddr : Word
  fpAddr : Word
  sumAddr : Word
  levels : List (Int × Int × Nat)
deriving DecidableEq, Repr

/-- The program in 160 bytes (R238). -/
def programOf (bs : List Byte) : Program where
  src := wordAt bs 0
  dst := wordAt bs 8
  micro := wordAt bs 0x10
  shape := wordAt bs 0x18
  maskAddr := wordAt bs 0x20
  scaleAddr := wordAt bs 0x28
  fpAddr := wordAt bs 0x30
  sumAddr := wordAt bs 0x38
  levels := (List.range 6).map (fun l =>
    let w := wordAt bs (0x40 + 16 * l)
    (signed 32 (getBits w 0 32), signed 32 (getBits w 32 32), getBits (wordAt bs (0x48 + 16 * l)) 0 16))

/-- SSIZE of a program. -/
def Program.ssize (p : Program) : Nat := getBits p.shape 0 13
/-- DSIZE of a program. -/
def Program.dsize (p : Program) : Nat := getBits p.shape 13 13
/-- CHUNK0 of a program. -/
def Program.chunk0 (p : Program) : Nat := getBits p.shape 26 9
/-- Iterations of a level. -/
def Program.count (p : Program) (l : Nat) : Nat := (p.levels.getD l (0, 0, 0)).2.2
/-- Iterations of the whole program (R238). -/
def Program.total (p : Program) : Nat := (p.levels.map (·.2.2)).foldl (· * ·) 1
/-- MGATE of a program. -/
def Program.gate (p : Program) : Bool := p.micro.getLsbD 22
/-- MZERO of a program. -/
def Program.zeros (p : Program) : Bool := p.micro.getLsbD 26
/-- MLVL of a program. -/
def Program.gateLevel (p : Program) : Nat := getBits p.micro 23 3

/-- The indices of iteration `t`, i0 fastest (R241). -/
def indicesOf : List (Int × Int × Nat) → Nat → List Nat
  | [], _ => []
  | (_, _, n) :: ls, t => t % n :: indicesOf ls (t / n)

/-- Bit `r` of a neuron mask (R161). -/
def maskBit (mask : List Byte) (r : Nat) : Bool := (mask.getD (r / 8) 0).getLsbD (r % 8)

/-- The set bits of a mask below `r` (R240). -/
def maskRank (mask : List Byte) (r : Nat) : Nat := ((List.range r).filter (maskBit mask)).length

/-- The row that the mask gate looks at in iteration `t`. -/
def Program.row (p : Program) (t : Nat) : Nat := (indicesOf p.levels t).getD p.gateLevel 0

/-- Whether the gate is clear for iteration `t`. -/
def Program.gated (p : Program) (mask : List Byte) (t : Nat) : Bool := p.gate && !maskBit mask (p.row t)

/-- Source of iteration `t` (R241). -/
def Program.srcOf (p : Program) (off : Word) (t : Nat) : Word :=
  let i := indicesOf p.levels t
  p.src + off + BitVec.ofInt 64 (((i.zip p.levels).map (fun e => (e.1 : Int) * e.2.1)).foldl (· + ·) 0)

/-- Destination of iteration `t`, where it writes: a clear row without MZERO writes nothing, and the rows kept move to
their ranks (R240, R241). -/
def Program.dstOf (p : Program) (mask : List Byte) (t : Nat) : Option Word :=
  if p.gated mask t && !p.zeros then none
  else
    let i := indicesOf p.levels t
    let j := if p.gate && !p.zeros then i.set p.gateLevel (maskRank mask (p.row t)) else i
    some (p.dst + BitVec.ofInt 64 (((j.zip p.levels).map (fun e => (e.1 : Int) * e.2.2.1)).foldl (· + ·) 0))

/-- The addresses of the elements that a program writes, in order. -/
def Program.dsts (p : Program) (mask : List Byte) : List Word := (List.range p.total).filterMap (p.dstOf mask)

/-! ## Stages (R239, R240) -/

/-- Bytes of one decompress item: 1, 2 or 4. -/
def Program.dw (p : Program) : Nat := 2 ^ getBits p.micro 34 2
/-- N of the decompress stage. -/
def Program.dn (p : Program) : Nat := getBits p.micro 30 4 + 1
/-- M of the decompress stage. -/
def Program.dm (p : Program) : Nat := 2 ^ (getBits p.micro 28 2 + 1)
/-- Bytes of one transpose item; 0 off. -/
def Program.xw (p : Program) : Nat := match getBits p.micro 19 2 with | 0 => 0 | 1 => 1 | 2 => 2 | _ => 4
/-- QTAG of a program. -/
def Program.qtag (p : Program) : Nat := getBits p.micro 14 5
/-- CVTS of a program. -/
def Program.cvts (p : Program) : Nat := getBits p.micro 0 6
/-- CVTD of a program. -/
def Program.cvtd (p : Program) : Nat := getBits p.micro 6 6
/-- NSAT of a program. -/
def Program.nsat (p : Program) : Bool := p.micro.getLsbD 12
/-- QEN of a program. -/
def Program.quantises (p : Program) : Bool := p.micro.getLsbD 13
/-- FPR of a program. -/
def Program.prints (p : Program) : Bool := p.micro.getLsbD 21
/-- DEN of a program. -/
def Program.expands (p : Program) : Bool := p.micro.getLsbD 27
/-- CSUM of a program. -/
def Program.sums (p : Program) : Bool := p.micro.getLsbD 36

/-- Items of one quantise block: 128 for a V128 target, 32 for V32 (R240). -/
def quantBlock (t : Nat) : Nat := if [13, 17, 21, 28].contains t then 32 else 128

/-- The number of items of a tag in `e` bytes, where they are whole items and packing groups (R36, R240). -/
def itemsIn (t e : Nat) : Option Nat :=
  if tag6 t then (if e % 3 = 0 then some (4 * (e / 3)) else none)
  else if 8 * e % tagWidth t = 0 then some (8 * e / tagWidth t) else none

/-- The bytes of `n` items of a tag, where they are whole packing groups. -/
def bytesOf (t n : Nat) : Option Nat :=
  if tag6 t then (if n % 4 = 0 then some (3 * (n / 4)) else none)
  else if n * tagWidth t % 8 = 0 then some (n * tagWidth t / 8) else none

/-- The element size after the decompress stage. -/
def Program.sizeExpand (p : Program) (e : Nat) : Option Nat :=
  if !p.expands then some e
  else if getBits p.micro 34 2 = 3 || e % (p.dn * (p.dw + 1)) ≠ 0 || p.dm < p.dn then none
  else some (e / (p.dn * (p.dw + 1)) * p.dm * p.dw)

/-- The side of a transpose block of `e` bytes. -/
def Program.side (p : Program) (e : Nat) : Option Nat :=
  ([1, 2, 4, 8, 16, 32, 64] : List Nat).find? (fun r => p.xw * r * r == e)

/-- The element size after the transpose stage. -/
def Program.sizeTurn (p : Program) (e : Nat) : Option Nat :=
  if p.xw = 0 then some e else (p.side e).map (fun _ => e)

/-- The element size after the convert stage. -/
def Program.sizeConvert (p : Program) (e : Nat) : Option Nat :=
  if p.cvts = 0 then some e
  else if 34 < p.cvts || p.cvtd = 0 || 34 < p.cvtd then none
  else (itemsIn p.cvts e).bind (bytesOf p.cvtd)

/-- The element size after the quantise stage. -/
def Program.sizeQuant (p : Program) (e : Nat) : Option Nat :=
  if !p.quantises then some e
  else if !([5, 8, 11, 13, 15, 17, 19, 21, 23, 26, 28].contains p.qtag) || (p.cvts ≠ 0 && p.cvtd ≠ 31) ||
      e % (4 * quantBlock p.qtag) ≠ 0 then none
  else bytesOf p.qtag (e / 4)

/-- Whether a program of `drill` is valid but for its span (R238 to R240). -/
def Program.valid (p : Program) : Bool :=
  getBits p.shape 35 29 == 0 && getBits p.micro 37 27 == 0 && 1 ≤ p.ssize && p.ssize ≤ 4096 && p.dsize ≤ 4096 &&
    !(p.gate && 5 < p.gateLevel) &&
    (match (((p.sizeExpand p.ssize).bind p.sizeTurn).bind p.sizeConvert).bind p.sizeQuant with
      | none => false
      | some e => e == p.dsize && (!p.prints || e == 4096))

/-- Whether a program of `drw` is valid but for its span (R242): no stage but the checksum is on. -/
def Program.validWrite (p : Program) : Bool :=
  getBits p.shape 35 29 == 0 && getBits p.micro 37 27 == 0 && !p.expands && !p.gate && !p.prints && p.xw == 0 &&
    p.cvts == 0 && !p.quantises && 1 ≤ p.dsize && p.dsize ≤ 4096

/-- Item `i` of `w` bytes. -/
def item (bs : List Byte) (w i : Nat) : List Byte := (bs.drop (w * i)).take w

/-- One decompress group: the later of two equal indices stands, an index of M or more is dropped (R240). -/
def Program.expandGroup (p : Program) (g : List Byte) : List Byte :=
  (List.range p.dm).flatMap (fun j =>
    match (List.range p.dn).reverse.find? (fun i => (g.getD (p.dn * p.dw + i) 0).toNat == j) with
    | none => List.replicate p.dw 0
    | some i => item g p.dw i)

/-- The decompress stage. -/
def Program.expand (p : Program) (bs : List Byte) : List Byte :=
  if !p.expands then bs
  else
    let n := p.dn * (p.dw + 1)
    (List.range (bs.length / n)).flatMap (fun i => p.expandGroup (item bs n i))

/-- The transpose stage. -/
def Program.turn (p : Program) (bs : List Byte) : List Byte :=
  match (if p.xw = 0 then none else p.side bs.length) with
  | none => bs
  | some r => (List.range r).flatMap (fun j => (List.range r).flatMap (fun i => item bs p.xw (i * r + j)))

/-- Items of a tag as memory packs them (R35, R36). -/
def unpackItems (t : Nat) (bs : List Byte) : List Nat :=
  let n := leNat bs
  (List.range ((itemsIn t bs.length).getD 0)).map (fun i => bitsOf n (packedBits t * i) (packedBits t))

/-- Items of a tag packed into bytes (R36). -/
def packItems (t : Nat) (es : List Nat) : List Byte :=
  toLe (packedBytes t es.length) (packElems (packedBits t) (es.map (· % 2 ^ packedBits t)))

/-- The convert stage (R130). -/
def Program.convert (p : Program) (bs : List Byte) : List Byte :=
  if p.cvts = 0 then bs else packItems p.cvtd ((unpackItems p.cvts bs).map (cvtElem p.cvts p.cvtd p.nsat))

/-- The largest finite value of a quantise target (R44). -/
def maxValue (t : Nat) : Num :=
  match elemOf t with
  | .float f => f.value f.maxfin
  | .int w sgn => .ofInt (intBounds w sgn).2


/-- One quantise block: its items and its scale (R240). -/
def Program.quantBlockOf (p : Program) (es : List Nat) : List Nat × BitVec 32 :=
  let sc := round32 ((f32 (es.foldl (fun m a => fmax32 m (absPat a)) 0)).div (maxValue p.qtag))
  (es.map (fun e => quantElem p.qtag p.nsat (val e) (f32 sc)), sc)

/-- The quantise stage: the bytes and the scales of the element's blocks. -/
def Program.quantise (p : Program) (bs : List Byte) : List Byte × List (BitVec 32) :=
  if !p.quantises then (bs, [])
  else
    let es := unpackItems 31 bs
    let n := quantBlock p.qtag
    let qs := (List.range (es.length / n)).map (fun i => p.quantBlockOf ((es.drop (n * i)).take n))
    (packItems p.qtag (qs.flatMap (·.1)), qs.map (·.2))

/-! ## A command's elements -/

/-- The program of a command. -/
def DrillCmd.program (c : DrillCmd) : Program := programOf c.prog

/-- The transfers of a command: a copy reads all its source first (R237), then writes by chunks. -/
def DrillCmd.total (c : DrillCmd) : Nat :=
  match c.kind with
  | .copy => 1 + ceilDiv (getBits c.z 0 20) 512
  | .furrow => c.rows.length
  | .marker => 0
  | _ => c.program.total

/-- The chunks of the map that transfer `i` writes into (R237, R238, R264). -/
def DrillCmd.chunks (c : DrillCmd) (i : Nat) : List Nat :=
  match c.kind with
  | .copy => if i = 0 then [] else [getBits c.z 20 9 + (i - 1)]
  | .furrow => [getBits (wordAt c.prog 0x18) 16 9]
  | .marker => []
  | _ =>
    let p := c.program
    match p.dstOf c.mask i with
    | none => []
    | some d =>
      let off := (d - p.dst).toNat
      (List.range ((off + p.dsize - 1) / 512 - off / 512 + 1)).map (fun k => p.chunk0 + off / 512 + k)

/-- Whether a command's stages hold every bit back until its end (R401). -/
def DrillCmd.late (c : DrillCmd) : Bool :=
  match c.kind with
  | .drill | .drw => c.program.quantises || c.program.prints || c.program.sums
  | _ => false

/-- Whether every transfer of a command has been made. -/
def DrillCmd.made (c : DrillCmd) : Bool := c.total ≤ c.next && c.summed

/-- Whether transfer `i` of a command has writes that are not acknowledged, or that were lost (R217, R244). -/
def State.pendingAt (s : State) (c : DrillCmd) (i : Nat) : Bool :=
  c.flight.any (fun f => f.1 == i && (s.unacked f.2 || (s.lostIn f.2).isSome))

/-- Whether no write of a command is on its way. -/
def State.landed (s : State) (c : DrillCmd) : Bool := !c.flight.any (fun f => s.unacked f.2)

/-- The first write of a command that ended in a fault record. -/
def State.drillLost (s : State) (c : DrillCmd) : Option LostWrite := c.flight.findSome? (fun f => s.lostIn f.2)

/-- Whether every transfer of a command is done: made, and acknowledged where its home is behind the fabric (R217, R392). -/
def State.over (s : State) (c : DrillCmd) : Bool := c.made && s.landed c && (s.drillLost c).isNone

/-- Whether a command still writes into a chunk. -/
def DrillCmd.owes (c : DrillCmd) (ch : Nat) : Bool :=
  ((List.range c.total).drop c.next).any (fun i => (c.chunks i).contains ch)

/-- Whether a command has written into a chunk. -/
def DrillCmd.wrote (c : DrillCmd) (ch : Nat) : Bool :=
  ((List.range c.total).take c.next).any (fun i => (c.chunks i).contains ch)

/-- Whether the writes that a command has made into a chunk are all at home (R217). -/
def State.chunkHome (s : State) (c : DrillCmd) (ch : Nat) : Bool :=
  !c.flight.any (fun f => (c.chunks f.1).contains ch && s.pendingAt c f.1)

/-- Whether the bit of a span chunk may be set (R217, R241, R401). -/
def State.chunkDone (s : State) (c : DrillCmd) (ch : Nat) : Bool :=
  s.over c || (!c.late && !c.owes ch && c.wrote ch && s.chunkHome c ch)

/-! ## Progress -/

/-- A command of a queue replaced. -/
def Tiller.setCmd (x : Tiller) (c : DrillCmd) : Tiller :=
  { x with drill := x.drill.map (fun d => if d.id = c.id then c else d) }

/-- A map changed, where the command still has one (R226). -/
def Tiller.onMap (x : Tiller) (n : Nat) (f : CMap → CMap) : Tiller := if n < 64 then x.setMap n (f (x.map n)) else x

/-- Whether a command may write chunks that are not known before it starts. -/
def DrillCmd.unknown (c : DrillCmd) : Bool := !c.started && c.kind != .copy && c.kind != .marker

/-- The bits of a map's finished chunks are set that no command of the map may still write; each counts as outstanding
(R245). -/
def Tiller.settleMap (x : Tiller) (n : Nat) : Tiller :=
  let cs := x.drill.filter (fun d => d.map == n)
  if cs.any DrillCmd.unknown then x
  else
    let owed := (cs.flatMap (·.span)).foldl (fun (b : BitVec 512) ch => b ||| BitVec.ofNat 512 (2 ^ ch)) 0
    x.onMap n (fun m => { m with bits := m.bits ||| (m.pend &&& ~~~owed), pend := m.pend &&& owed })

/-- A chunk that a command owes no more: its bit is set when no other command of the map owes it (R245). -/
def Tiller.settleChunk (x : Tiller) (c : DrillCmd) (ch : Nat) : Tiller :=
  ((x.setCmd { c with span := c.span.filter (· != ch) }).onMap c.map
    (fun m => { m with pend := m.pend ||| BitVec.ofNat 512 (2 ^ ch) })).settleMap c.map

/-- A command counts as complete: it leaves its queue, its map and its task (R113, R231). -/
def State.retire (s : State) (tl : Nat) (c : DrillCmd) : State :=
  let x := s.tiller tl
  let x1 : Tiller := { x with drill := x.drill.filter (fun d => d.id != c.id) }
  let x2 := (x1.onMap c.map (fun m => { m with outstanding := m.outstanding - 1 })).settleMap c.map
  (s.setTiller tl x2).onTask c.uid (fun t => t.done c.id)

/-- The fault records of a command's writes taken note of. -/
def State.drillNoted (s : State) (c : DrillCmd) : State := c.flight.foldl (fun s f => s.noted f.2) s

/-- A command stops with an error (R244): it reads no more, and its writes in flight complete; then the map records the error,
the bits of the span chunks whose writes are all done are set, and the command counts as complete. -/
def State.drillStop (s : State) (tl : Nat) (c : DrillCmd) (code va : Nat) : State :=
  let first := c.failed.getD (code, va)
  if !s.landed c then s.setTiller tl ((s.tiller tl).setCmd { c with failed := some first })
  else
    let err : MapErr := ⟨first.1, BitVec.ofNat 64 (first.2 % 2 ^ 56), c.syl⟩
    let x := (s.tiller tl).onMap c.map (fun m => { m with err := some (m.err.getD err) })
    let good := c.span.filter (fun ch => !c.owes ch && s.chunkHome c ch)
    let x1 := good.foldl (fun x ch => x.settleChunk ((x.drill.find? (·.id == c.id)).getD c) ch) x
    ((s.setTiller tl x1).drillNoted c).retire tl c

/-- What a command's failure comes to: the machine with the error recorded, after a fabric fault record is logged as well; or the
address of an access that is held at an admission point or waits for a line, and the command tries again (R244, R346). -/
def State.drillFail (s : State) (tl : Nat) (ext : List Host.Cell) (c : DrillCmd) (code va : Nat) : Except Nat State :=
  let no := (s.task? c.uid).elim 0 Task.no
  if code = heldCode then .error va
  else .ok ((s.logLost (c.who tl) ext no (if code = 22 then 16 else code) va).drillStop tl c code va)

/-- A command that has not made its step: an access of it at an address stands at the admission point that holds it. -/
def State.drillHeld (s : State) (tl : Nat) (c : DrillCmd) (va : Nat) : State :=
  match s.drillPage (c.who tl) .read c va with
  | .error _ => s
  | .ok (pa, pte, _, _) => s.noteHeld (BitVec.ofNat 64 va) [⟨s.localAddr pa, 1, pteFe pte, policyOf c.ch pte⟩]

/-- A step of a command. -/
def State.drillTry (s : State) (tl : Nat) (c : DrillCmd) (r : Except Nat State) : State :=
  match r with
  | .ok s1 => s1
  | .error va => s.drillHeld tl c va

/-- A command whose transfers and bits are all done counts as complete. -/
def State.drillSettle (s : State) (tl : Nat) (c : DrillCmd) : State :=
  if s.over c && c.span.isEmpty then s.retire tl c else s.setTiller tl (((s.tiller tl).setCmd c).settleMap c.map)

/-- Writes of transfer `i` made: those behind the fabric are on their way until they are acknowledged (R217, R392). -/
def State.drillWrite (s : State) (c : DrillCmd) (i : Nat) (ws : List EngWrite) : DrillCmd × State :=
  let s1 := s.engWrite ((s.task? c.uid).elim 0 Task.no) ws
  (if s1.fresh = s.fresh then c else { c with flight := c.flight ++ [(i, s.fresh, s1.fresh)] }, s1)

/-- The end of a command with a checksum: it is written (R240). -/
def State.drillSum (s : State) (tl : Nat) (ext : List Host.Cell) (c : DrillCmd) : Except Nat State :=
  if c.next < c.total || c.summed then .ok (s.drillSettle tl c)
  else if !c.program.sums then .ok (s.drillSettle tl { c with summed := true })
  else
    match State.drillTargets tl ext [(c.program.sumAddr, toLe 4 (~~~c.csum).toNat)] c s with
    | .error (code, va) =>
      if code = heldCode then .ok ((s.setTiller tl ((s.tiller tl).setCmd c)).drillHeld tl c va) else s.drillFail tl ext c code va
    | .ok (ws, c1, s1) =>
      let r := s1.drillWrite c1 c1.total ws
      .ok ((r.2.bumpPlot (tl / 4) 2 4).drillSettle tl { r.1 with summed := true })

/-- Whether an unstarted command may start: every access that the task pushed before it has performed at plot scope
(R217). -/
def State.drillReady (s : State) (c : DrillCmd) : Bool :=
  match s.task? c.uid with
  | none => true
  | some t => t.homeBelow c.seq

/-- The span of a valid program: the chunks from CHUNK0 to that of its highest destination byte; none where it is out of
range (R241). -/
def Program.span (p : Program) (mask : List Byte) : Option (List Nat) :=
  let ds := (p.dsts mask).map BitVec.toNat
  match ds with
  | [] => some []
  | d :: rest =>
    let lo := rest.foldl min d
    let hi := rest.foldl max d + p.dsize - 1
    if lo < p.dst.toNat || 511 < p.chunk0 + (hi - p.dst.toNat) / 512 then none
    else some ((List.range ((hi - p.dst.toNat) / 512 + 1)).map (p.chunk0 + ·))

/-- The start of a `drill` or `drw`: the program is read, charged, validated, and its mask is read (R238 to R243). -/
def State.startProgram (s : State) (tl : Nat) (ext : List Host.Cell) (c : DrillCmd) : Except Nat State :=
  match s.drillRead tl ext c c.x 160 with
  | .error (code, va) => s.drillFail tl ext c code va
  | .ok (bs, c1, s1) =>
    let p := programOf bs
    let drw := c.kind == .drw
    let s2 := s1.chargeLate c.uid 0 (ceilDiv ((if drw then p.dsize else p.ssize) * p.total) 64)
    if !(if drw then p.validWrite else p.valid) then s2.drillFail tl ext c1 21 c.x.toNat
    else
      match s2.drillRead tl ext c1 p.maskAddr (if p.gate then ceilDiv (p.count p.gateLevel) 8 else 0) with
      | .error (code, va) => s2.drillFail tl ext c1 code va
      | .ok (mask, c2, s3) =>
        match p.span mask with
        | none => s3.drillFail tl ext c2 21 c.x.toNat
        | some span => s3.drillSum tl ext { c2 with started := true, prog := bs, mask := mask, span := span }

/-- Whether a furrow descriptor keeps R264. -/
def furrowOk (addr : Word) (d : List Byte) : Bool :=
  let ds := getBits (wordAt d 0x10) 0 32
  let ss := getBits (wordAt d 0x10) 32 32
  let rowb := getBits (wordAt d 0x18) 0 16
  addr.toNat % 32 == 0 && (wordAt d 0).toNat % 64 == 0 && (wordAt d 8).toNat % 64 == 0 && ds % 64 == 0 && ss % 64 == 0 &&
    1 ≤ rowb && rowb ≤ min ds ss && getBits (wordAt d 0x18) 25 39 == 0

/-- The start of a `furrow`: its descriptor is read and charged (R264). -/
def State.startFurrow (s : State) (tl : Nat) (ext : List Host.Cell) (c : DrillCmd) : Except Nat State :=
  match s.drillRead tl ext c c.x 32 with
  | .error (code, va) => s.drillFail tl ext c code va
  | .ok (d, c1, s1) =>
    let s2 := s1.chargeLate c.uid 0 (ceilDiv (c.rows.length * getBits (wordAt d 0x18) 0 16) 64)
    if !furrowOk c.x d then s2.drillFail tl ext c1 21 c.x.toNat
    else .ok (s2.drillSettle tl { c1 with started := true, prog := d, span := [getBits (wordAt d 0x18) 16 9] })

/-- The Drill starts the next command of a queue, in issue order, at most four in progress (R236); a translation marker
at its turn goes. -/
def execDrillCommandStart (tiller : Nat) (ext : List Host.Cell) (s : State) : Host.Outcome State Fault Refusal :=
  let x := s.tiller tiller
  match x.drill.find? (fun c => !c.started) with
  | none => .next s
  | some c =>
    if c.kind == .marker then .next (s.setTiller tiller { x with drill := x.drill.filter (fun d => d.id != c.id) })
    else if 4 ≤ (x.drill.filter (·.started)).length || !s.drillReady c then .next s
    else
      match c.kind with
      | .copy => .next (s.setTiller tiller (x.setCmd { c with started := true }))
      | .furrow => .next (s.drillTry tiller c (s.startFurrow tiller ext c))
      | _ => .next (s.drillTry tiller c (s.startProgram tiller ext c))

/-- Writes of one transfer made, or the failure of R244. -/
def State.transfer (s : State) (tl : Nat) (ext : List Host.Cell) (c : DrillCmd) (ws : List (Word × List Byte))
    (f : DrillCmd → DrillCmd) : Except Nat State :=
  match State.drillTargets tl ext ws c s with
  | .error (code, va) => s.drillFail tl ext c code va
  | .ok (rs, c1, s1) =>
    let r := s1.drillWrite c1 c1.next rs
    (r.2.bumpPlot (tl / 4) 2 ((ws.map (fun e => e.2.length)).foldl (· + ·) 0)).drillSum tl ext (f { r.1 with next := c1.next + 1 })

/-- An element of a program staged and written with what its stages write (R240, R241). -/
def State.writeElem (s : State) (tl : Nat) (ext : List Host.Cell) (c : DrillCmd) (d : Word) (x : List Byte)
    (scales : List (BitVec 32)) (print : Bool) : Except Nat State :=
  let p := c.program
  let sc := scales.zipIdx.map (fun e => (p.scaleAddr + BitVec.ofNat 64 (4 * (c.blocks + e.2)), toLe 4 e.1.toNat))
  let fp := if print then [(p.fpAddr + BitVec.ofNat 64 (8 * c.done), toLe 8 (crc64 x).toNat)] else []
  s.transfer tl ext c ((d, x) :: sc ++ fp) (fun c =>
    { c with done := c.done + 1, blocks := c.blocks + scales.length, csum := crc32cGo c.csum x })

/-- One transfer of a copy: all of its source read, or one chunk written (R237). -/
def State.copyStep (s : State) (tl : Nat) (ext : List Host.Cell) (c : DrillCmd) : Except Nat State :=
  if c.next = 0 then
    match s.drillRead tl ext c c.y (getBits c.z 0 20) with
    | .error (code, va) => s.drillFail tl ext c code va
    | .ok (bs, c1, s1) => .ok (s1.setTiller tl ((s1.tiller tl).setCmd { c1 with buf := bs, next := 1 }))
  else
    let o := 512 * (c.next - 1)
    s.transfer tl ext c [(c.x + BitVec.ofNat 64 o, (c.buf.drop o).take 512)] id

/-- One iteration of a Drill program (R241, R242). An element is read once the writes of the one 16 before it are complete (R241,
R392). -/
def State.programStep (s : State) (tl : Nat) (ext : List Host.Cell) (c : DrillCmd) : Except Nat State :=
  let p := c.program
  if c.flight.any (fun f => f.1 + 16 ≤ c.next && s.unacked f.2) then .ok s
  else
  match p.dstOf c.mask c.next with
  | none => s.drillSum tl ext { c with next := c.next + 1 }
  | some d =>
    if c.kind == .drw then
      s.writeElem tl ext c d ((List.range p.dsize).map (fun i => BitVec.ofNat 8 (c.z.toNat / 2 ^ (8 * (i % 8))))) [] false
    else if p.gated c.mask c.next then s.writeElem tl ext c d (List.replicate p.dsize 0) [] false
    else
      match s.drillRead tl ext c (p.srcOf c.z c.next) p.ssize with
      | .error (code, va) => s.drillFail tl ext c code va
      | .ok (bs, c1, s1) =>
        let q := p.quantise (p.convert (p.turn (p.expand bs)))
        s1.writeElem tl ext c1 d q.1 q.2 p.prints

/-- What ends a command before its next step: a failure that has stopped it, or a write lost behind the fabric (R244, R396). -/
def State.drillEnds (s : State) (c : DrillCmd) : Option (Nat × Nat) :=
  c.failed.orElse (fun _ => (s.drillLost c).map (fun l => (22, l.va.toNat)))

/-- One transfer of command `n` of a Drill queue (R237, R241); a checksum that has been held is written (R240). -/
def execDrillElementTransfer (tiller n : Nat) (ext : List Host.Cell) (s : State) : Host.Outcome State Fault Refusal :=
  match (s.tiller tiller).drill[n]? with
  | none => .next s
  | some c =>
    if !c.started then .next s
    else
      match s.drillEnds c with
      | some e => .next (s.drillStop tiller c e.1 e.2)
      | none =>
        if c.made then .next (if s.over c && c.span.isEmpty then s.retire tiller c else s)
        else
          match c.kind with
          | .copy => .next (s.drillTry tiller c (s.copyStep tiller ext c))
          | .drill | .drw =>
            .next (s.drillTry tiller c (if c.total ≤ c.next then s.drillSum tiller ext c else s.programStep tiller ext c))
          | _ => .next s

/-- One row of a `furrow` copied to its original place (R264). -/
def execFurrowExecute (tiller n : Nat) (ext : List Host.Cell) (s : State) : Host.Outcome State Fault Refusal :=
  match (s.tiller tiller).drill[n]? with
  | none => .next s
  | some c =>
    if !c.started || c.kind != .furrow then .next s
    else
      match s.drillEnds c with
      | some e => .next (s.drillStop tiller c e.1 e.2)
      | none =>
      if c.total ≤ c.next then .next s
      else
      let j := getBits c.z 0 10 + c.next
      let row := c.rows.getD c.next 0
      let src := wordAt c.prog 8 + BitVec.ofNat 64 (j * getBits (wordAt c.prog 0x10) 32 32)
      let dst := wordAt c.prog 0 + BitVec.ofNat 64 (row * getBits (wordAt c.prog 0x10) 0 32)
      match s.drillRead tiller ext c src (getBits (wordAt c.prog 0x18) 0 16) with
      | .error (code, va) => .next (s.drillTry tiller c (s.drillFail tiller ext c code va))
      | .ok (bs, c1, s1) => .next (s.drillTry tiller c (s1.transfer tiller ext c1 [(dst, bs)] id))

/-- The bit of a chunk is set once every write of it is at home (R217, R241, R245, R401). -/
def execChunkComplete (tiller n chunk : Nat) (s : State) : Host.Outcome State Fault Refusal :=
  match (s.tiller tiller).drill[n]? with
  | none => .next s
  | some c =>
    if !c.started || c.failed.isSome || !c.span.contains chunk || !s.chunkDone c chunk then .next s
    else
      let x := (s.tiller tiller).settleChunk c chunk
      .next ((s.setTiller tiller x).drillSettle tiller { c with span := c.span.filter (· != chunk) })

end Sys2Proof.Machine
end

