-- ==== Sys2Proof/Machine/Collect.lean ====
section
/-! DEFINITION. The collective engine (R246 to R251), the sampler cores (R252, R253) and `glean` (R274). -/

namespace Sys2Proof.Machine

/-! ## The group table (R247) -/

/-- A register of a saved group table, 0 where nothing wrote it. -/
def tableWord (t : Tab Word) (off : Nat) : Word := Tab.getD t off 0

/-- The offset of a group-table entry (R247). -/
def groupBase (die g : Nat) : Nat := 0x1000000 + 0x400000 * die + 0x4000 * g

/-- V of an entry. -/
def groupV (t : Tab Word) (die g : Nat) : Bool := (tableWord t (groupBase die g)).getLsbD 63
/-- COUNT of an entry. -/
def groupCount (t : Tab Word) (die g : Nat) : Nat := getBits (tableWord t (groupBase die g)) 0 13

/-- The package and die of participant `p`. -/
def groupMember (t : Tab Word) (die g p : Nat) : Nat × Nat :=
  let w := tableWord t (groupBase die g + 0x40 + 8 * (p / 4))
  (getBits w (16 * (p % 4)) 10, getBits w (16 * (p % 4) + 10) 2)

/-- The registers of the group tables. -/
def State.groupTables (s : State) : Tab Word := s.mgmt.regs.filter (fun e => 0x1000000 ≤ e.1 && e.1 < 0x2000000)

/-! ## Issue (R248, R252, R274) -/

/-- A full queue of an engine: 0 collective, 1 sampler, 2 Gleaner, 3 notices. -/
def waitEngine (n : Nat) (depth : Die → Nat) (limit : Nat) (_ : Args) (s : State) : Option Stop :=
  if limit ≤ depth (s.die s.cur.die) then some (.block (.engine n)) else none

/-- A collective queued: A receives the engine's count with it (R248). -/
def collForm (opc : BitVec 10) (kind : CollKind) (x : Syl) (s : State) : Host.Outcome State Fault Refusal :=
  runWait .M opc.toNat x (waitEngine 0 (fun d => d.colls.length) 64) plain (fun g s =>
    if g.b.w.toNat % 64 ≠ 0 then .error (.fault 6 (some g.b.w))
    else if g.c.w.toNat % 8 ≠ 0 then .error (.fault 6 (some g.c.w))
    else
      let t := s.cur
      let d := s.die t.die
      match s.putS x.a 1 (BitVec.ofNat 64 (d.accepted + 1)) with
      | .error e => .error e
      | .ok s1 =>
        let e : CollEntry := {
          id := s1.fresh
          uid := s.stage.uid
          tenant := t.tenant
          pl := t.pl
          plot := t.plot
          kind := kind
          d := x.d.toNat
          desc := g.b.w
          doneVa := g.c.w
          inst := g.e.w
          seq := s.stage.seq
          table := s.groupTables
          started := false
          err := false
          words := []
          sent := none }
        .ok (((s1.setDie t.die { d with colls := d.colls ++ [e], accepted := d.accepted + 1 }).onCur
          (fun t => t.begin s1.fresh)).mint)) s

/-- `coll` (R248). -/
def execColl (x : Syl) (s : State) : Host.Outcome State Fault Refusal := collForm 0x050 .coll x s
/-- `coll.topk` (R248). -/
def execCollTopk (x : Syl) (s : State) : Host.Outcome State Fault Refusal := collForm 0x051 .topk x s
/-- `a2a` (R250). -/
def execA2a (x : Syl) (s : State) : Host.Outcome State Fault Refusal := collForm 0x052 .a2a x s

/-- `sample` (R252): its register is empty until a core fills it. -/
def execSample (x : Syl) (s : State) : Host.Outcome State Fault Refusal :=
  runWait .M 0x053 x (waitEngine 1 (fun d => d.samples.length) 64) (fun _ _ => memCost 1) (fun g s =>
    if g.b.w.toNat % 32 ≠ 0 then .error (.fault 6 (some g.b.w))
    else if g.c.w.toNat % 8 ≠ 0 then .error (.fault 6 (some g.c.w))
    else
      let t := s.cur
      match (if x.a = 0 then .ok s else s.produce .sample x.a.toNat 0 0 0) with
      | .error e => .error e
      | .ok s1 =>
        let d := s1.die t.die
        let e : SampleEntry := {
          id := s1.fresh
          uid := s.stage.uid
          tenant := t.tenant
          pl := t.pl
          plot := t.plot
          req := g.b.w
          readyVa := g.c.w
          pos := g.e.w
          reg := x.a.toNat
          seq := s.stage.seq
          pushed := t.q.seq
          prod := if x.a = 0 then none else some s.fresh
          sent := none }
        .ok (((s1.setDie t.die { d with samples := d.samples ++ [e] }).onCur (fun t => t.begin s1.fresh)).mint)) s

/-- `glean` (R274). -/
def execGlean (x : Syl) (s : State) : Host.Outcome State Fault Refusal :=
  runWait .M 0x054 x (waitEngine 2 (fun d => d.fills.length) 256) plain (fun g s =>
    if g.b.w.toNat % 64 ≠ 0 then .error (.fault 6 (some g.b.w))
    else if 4096 < g.c.w.toNat then .error (.fault 25 none)
    else
      let t := s.cur
      let d := s.die t.die
      let e : FillEntry := .glean s.fresh s.stage.uid t.tenant t.pl g.b.w g.c.w.toNat t.plot
      .ok (((s.setDie t.die { d with fills := d.fills ++ [e] }).onCur (fun t => t.begin s.fresh)).mint)) s

/-! ## Descriptors (R248) -/

/-- The maker of an engine access for an entry. -/
def CollEntry.who (e : CollEntry) : Who := { plot := e.plot, tenant := e.tenant, pl := e.pl }
/-- The die of an entry. -/
def CollEntry.die (e : CollEntry) : Nat := e.plot / 32

/-- What a participant of an instance queued: its rank, syllable, D and descriptor. -/
structure Part where
  rank : Nat
  kind : CollKind
  d : Nat
  words : List Word
deriving DecidableEq, Repr

/-- A word of a descriptor. -/
def Part.w (p : Part) (i : Nat) : Word := p.words.getD i 0
/-- COUNT of a descriptor. -/
def Part.count (p : Part) : Nat := getBits (p.w 2) 0 32
/-- AUX of a descriptor. -/
def Part.aux (p : Part) : Nat := getBits (p.w 2) 32 16
/-- CAP of a descriptor. -/
def Part.cap (p : Part) : Nat := getBits (p.w 2) 48 16
/-- GROUP of a descriptor. -/
def Part.group (p : Part) : Nat := getBits (p.w 3) 0 16
/-- NPART of a descriptor. -/
def Part.npart (p : Part) : Nat := getBits (p.w 3) 16 16

/-- The operation of a coll. -/
def Part.op (p : Part) : Nat := p.d % 8
/-- The bytes of one source element, or one row. -/
def Part.size (p : Part) : Nat :=
  match p.kind with
  | .coll => if p.d / 8 % 4 = 1 then 2 else 4
  | .topk => 8
  | .a2a => p.aux

/-- The participant of an entry. -/
def CollEntry.part (e : CollEntry) : Part := ⟨getBits (e.words.getD 3 0) 32 16, e.kind, e.d, e.words⟩

/-- The participant of another package. -/
def farPart (f : FarPart) : Part := ⟨f.rank, if f.kind = 0 then .coll else if f.kind = 1 then .topk else .a2a, f.d, f.params⟩

/-- Whether a descriptor names a form of its own group: V, COUNT and MYIDX of the entry's table (R247). -/
def State.groupOk (s : State) (table : Tab Word) (e : CollEntry) : Bool :=
  let p := e.part
  p.group < 256 && groupV table e.die p.group && groupCount table e.die p.group == p.npart && p.rank < p.npart &&
    s.fab.pkg == some (groupMember table e.die p.group p.rank).1 && (groupMember table e.die p.group p.rank).2 == e.die

/-- Whether a descriptor's own fields are in range (R248). -/
def Part.ok (p : Part) : Bool :=
  getBits (p.w 3) 48 16 == 0 && p.w 6 == 0 && p.w 7 == 0 &&
    (match p.kind with
      | .coll => p.op != 3 || p.aux < p.npart
      | .topk => 1 ≤ p.count && p.count ≤ 64
      | .a2a => p.aux % 64 == 0 && 64 ≤ p.aux && p.count ≤ 65536)

/-- Whether the buffers of a participant are aligned to what they hold (R251). -/
def Part.aligned (p : Part) : Bool :=
  match p.kind with
  | .a2a => (p.w 1).toNat % 4 == 0 && (p.w 4).toNat % 2 == 0 && (p.w 5).toNat % 4 == 0
  | _ => (p.w 0).toNat % p.size == 0 && (p.w 1).toNat % p.size == 0

/-- Whether two participants queued one form (R247). -/
def Part.agrees (p q : Part) : Bool := p.kind == q.kind && p.d == q.d && p.w 2 == q.w 2

/-! ## Start of an instance (R246, R247) -/

/-- The first entry of a die's queue that has not started. -/
def State.headColl (s : State) (die : Nat) : Option CollEntry := (s.die die).colls.find? (fun e => !e.started)

/-- An entry replaced. -/
def State.setColl (s : State) (e : CollEntry) : State :=
  let d := s.die e.die
  s.setDie e.die { d with colls := d.colls.map (fun x => if x.id = e.id then e else x) }

/-- The context that a record of an entry's failed access names. -/
def State.collCtx (s : State) (e : CollEntry) : Nat := (s.task? e.uid).elim 0 Task.no

/-- An entry with its descriptor read, and without words where it cannot be; or the read that is held (R346). -/
def State.readColl (s : State) (ext : List Host.Cell) (e : CollEntry) : Except (Who × Nat) (CollEntry × State) :=
  match s.engRead e.who ext e.desc 64 with
  | .error (code, va) => if code = heldCode then .error (e.who, va) else .ok (e, s.logLost e.who ext (s.collCtx e) code va)
  | .ok (bs, s1) => .ok ({ e with words := (List.range 8).map (fun i => wordAt bs (8 * i)) }, s1)

/-- Descriptors of entries read one after the other. -/
def State.readColls (s : State) (ext : List Host.Cell) : List CollEntry → Except (Who × Nat) (List CollEntry × State)
  | [] => .ok ([], s)
  | e :: es =>
    match s.readColl ext e with
    | .error x => .error x
    | .ok r =>
      match r.2.readColls ext es with
      | .error x => .error x
      | .ok rs => .ok (r.1 :: rs.1, rs.2)

/-- An entry starts: its BM falls due with its descriptor (R243, R248). -/
def State.startColl (s : State) (e : CollEntry) (err : Bool) : State :=
  (s.setColl { e with started := true, err := err }).chargeLate e.uid 0
    (if e.words.isEmpty then 0 else ceilDiv (e.part.count * e.part.size) 64)

/-- The group tables as they stood when the first of some entries was queued (R247). -/
def firstTable (es : List CollEntry) : Tab Word :=
  match es with
  | [] => []
  | e :: rest => (rest.foldl (fun (a : CollEntry) b => if b.id < a.id then b else a) e).table

/-- The bytes that a participant's engine writes at its destination. -/
def Part.destBytes (p : Part) : Nat :=
  match p.kind with
  | .a2a => p.cap * p.aux + 4 * p.cap
  | .topk => 8 * p.count
  | .coll => p.count * p.size * (if p.op = 4 then p.npart else 1)

/-- What an entry names: its descriptor, its source and destination, and for a2a its ROUTE and row-control words (R219, R248). -/
def CollEntry.named (e : CollEntry) : List (Word × Nat) :=
  let p := e.part
  [(e.desc, 64), (p.w 0, p.count * p.size), (p.w 1, p.destBytes)] ++
    (if p.kind == .a2a then [(p.w 4, 2 * p.count), (p.w 5, 4 * p.count)] else [])

/-- The physical pieces of what an entry names, as far as they are mapped. -/
def State.namedPieces (s : State) (e : CollEntry) : List Piece :=
  e.named.flatMap (fun n => match s.checkAccess e.who .read n.1.toNat n.2 with
    | .ok c => c.pieces
    | .error _ => [])

/-- Whether a queued access may touch some lines: one through a sheaf window may touch any. -/
def Target.mayTouch (g : Target) (hit : Nat → Bool) : Bool :=
  match g with
  | .window .. => true
  | .mem ps => ps.any (fun p => (pieceLines p).any hit)

/-- Whether a participant's earlier accesses to what the collective names have performed at plot scope; its other accesses gain no
order (R219). -/
def State.namedQuiet (s : State) (named : List Piece) (e : CollEntry) : Bool :=
  match s.task? e.uid with
  | none => true
  | some t =>
    let hit (l : Nat) : Bool := named.any (fun p => p.pa / 64 ≤ l && l * 64 < p.pa + p.len)
    let store (a : StoreAcc) : Bool :=
      match a with
      | .sta n _ (.mem []) .. => n < e.seq
      | .sta n _ g .. => n < e.seq && g.mayTouch hit
      | .marker _ n _ _ g .. => n < e.seq && g.mayTouch hit
    !((t.flow.frame.loads ++ t.q.loads).any (fun a => a.seq < e.seq && a.tgt.mayTouch hit) ||
      (t.flow.frame.stores ++ t.q.stores).any store ||
      t.q.buffer.any (fun p => hit p.line && p.seqs.any (·.1 ≤ e.seq)))

/-- Whether every participant of an instance has queued it, by the table as `all` found it: a die of this package with `mine`,
another one as `far` says. -/
def State.allQueued (s : State) (m : CollEntry) (group : Nat) (all mine : List CollEntry) (far : List FarPart) : Bool :=
  (List.range m.part.npart).all (fun p =>
    let q := groupMember (firstTable all) m.die group p
    if s.fab.pkg == some q.1 then mine.any (fun e => e.part.rank == p && e.die == q.2) else far.any (fun f => f.rank == p))

/-- Whether an entry stands first in its engine's queue. -/
def State.isHead (s : State) (e : CollEntry) : Bool := (s.headColl e.die).any (fun h => h.id == e.id)

/-- The start of an instance, given the queued entries of its number and group with their descriptors: those that stand first in
their queues start together once every participant has queued it and what they did before to the named buffers is done (R219,
R246). An index that one of them shares with another entry that fits the group gives ERR to all (R247). -/
def State.startInstance (s : State) (group : Nat) (all : List CollEntry) (far : List FarPart) : State :=
  let mine := all.filter s.isHead
  match mine with
  | [] => s
  | m :: _ =>
    let twice := all.filter (fun e => !s.isHead e && s.groupOk (firstTable all) e &&
      mine.any (fun m => m.die == e.die && m.part.rank == e.part.rank))
    if !s.allQueued m group all mine far || !mine.all (s.namedQuiet (mine.flatMap s.namedPieces)) then s
    else (mine ++ twice).foldl (fun s e => s.startColl e (!twice.isEmpty)) s

/-- An instance starts (R246, R247): every participant has queued it and stands first in its engine's queue. An entry whose
descriptor cannot be read or does not fit its group, as it stood when the first participant queued, starts alone, with ERR. -/
def execCollectiveInstanceStart (group inst : Nat) (far : List FarPart) (ext : List Host.Cell) (s : State) : Host.Outcome State Fault Refusal :=
  let queued := ((List.range 4).flatMap (fun d => (s.die d).colls)).filter (fun e => !e.started && e.inst.toNat == inst)
  if !queued.any s.isHead then .next s
  else
    match s.readColls ext queued with
    | .error x => .next (s.holdAt x.1 x.2)
    | .ok (es, s1) =>
      let all := es.filter (fun e => !e.words.isEmpty && e.part.group == group)
      match (es.filter s.isHead).find? (fun e => e.words.isEmpty || (e.part.group == group && !s.groupOk (firstTable all) e)) with
      | some e => .next (s1.startColl e true)
      | none => .next (s1.startInstance group all far)

/-! ## Results (R249, R250) -/

/-- Elements of `w` bytes. -/
def wideElems (w : Nat) (bs : List Byte) : List Nat := (List.range (bs.length / w)).map (fun i => leNat ((bs.drop (w * i)).take w))

/-- One element combined over the participants in order (R249). -/
def reduceElem (op fmt : Nat) (vs : List Nat) : Nat :=
  match vs with
  | [] => 0
  | v :: rest =>
    if fmt = 2 then
      if op = 0 then vs.foldl (· + ·) 0 % 2 ^ 32
      else rest.foldl (fun a b => if (if op = 1 then signed 32 a < signed 32 b else signed 32 b < signed 32 a) then b else a) v
    else
      let wide (n : Nat) : BitVec 32 := if fmt = 1 then BitVec.ofNat 32 (n * 2 ^ 16) else BitVec.ofNat 32 n
      let acc := rest.foldl (fun a b =>
        if op = 0 then round32 ((f32 a).add (f32 (wide b))) else if op = 1 then fmax32 a (wide b) else fmin32 a (wide b)) (wide v)
      if fmt = 1 then (if op = 0 then bf16.cvt false (f32 acc) else acc.toNat / 2 ^ 16) else acc.toNat

/-- The destination bytes of a coll or coll.topk from the sources in participant order (R249). -/
def collResult (p : Part) (srcs : List (List Byte)) : List Byte :=
  match p.kind with
  | .topk =>
    (bestPairs p.count ((srcs.flatMap (wideElems 8)).map pairOf)).flatMap (fun q => toLe 8 (pairBits q))
  | _ =>
    if p.op = 3 then srcs.getD p.aux []
    else if p.op = 4 then srcs.flatMap id
    else
      let cols := srcs.map (wideElems p.size)
      (List.range p.count).flatMap (fun i => toLe p.size (reduceElem p.op (p.d / 8 % 4) (cols.map (fun c => c.getD i 0))))

/-- The rows that come to a receiver, in order: sender and row (R250). -/
def incoming (routes : List (List Nat)) (dst : Nat) : List (Nat × Nat) :=
  (routes.zipIdx).flatMap (fun e => (e.1.zipIdx.filter (fun r => r.1 == dst)).map (fun r => (e.2, r.2)))

/-- Whether a row is deferred (R250). -/
def deferred (routes : List (List Nat)) (n cap sender row : Nat) : Bool :=
  let dst := (routes.getD sender []).getD row 0xFFFF
  dst < n && !((incoming routes dst).take cap).contains (sender, row)

/-- The destination bytes of a receiver: the rows accepted, and their origins after CAP rows; with the addresses' offset
of the origins (R250). -/
def acceptedRows (p : Part) (srcs : List (List Byte)) (routes : List (List Nat)) (dst : Nat) : List Byte × List Byte :=
  let rows := (incoming routes dst).take p.cap
  (rows.flatMap (fun r => ((srcs.getD r.1 []).drop (p.aux * r.2)).take p.aux),
   rows.flatMap (fun r => toLe 4 (r.1 * 2 ^ 16 + r.2)))

/-- The row-control word of a deferred row (R250). -/
def deferWord (w : Nat) : Nat :=
  w / 2 ^ 12 * 2 ^ 12 + min (bitsOf w 8 4 + 1) 15 * 2 ^ 8 + bitsOf w 2 6 * 2 ^ 2 + 3

/-! ## Completion (R251) -/

/-- The writes of one participant's engine, with RECV and DEFER. -/
structure PartResult where
  entry : CollEntry
  writes : List (Word × List Byte)
  recv : Nat
  defer : Nat
deriving DecidableEq, Repr

/-- Why an instance gives no result: the code, or that an access is held, with its maker, the context of its record and its
address. -/
structure Miss where
  code : Nat
  who : Who
  ctx : Nat
  va : Nat
deriving DecidableEq, Repr

/-- An access of an entry that has failed. -/
def State.collMiss (s : State) (e : CollEntry) (x : Nat × Nat) : Miss := ⟨x.1, e.who, s.collCtx e, x.2⟩

/-- An instance that ends with ERR though no access has failed. -/
def State.collBad (s : State) (e : CollEntry) : Miss := ⟨1, e.who, s.collCtx e, 0⟩

/-- The rows of a participant's own row-control words that are deferred, read and rewritten. -/
def State.deferRows (s : State) (e : CollEntry) (ext : List Host.Cell) :
    List Nat → Except Miss (List (Word × List Byte) × State)
  | [] => .ok ([], s)
  | r :: rs =>
    let va := e.part.w 5 + BitVec.ofNat 64 (4 * r)
    match s.engRead e.who ext va 4 with
    | .error x => .error (s.collMiss e x)
    | .ok (bs, s1) =>
      match s1.deferRows e ext rs with
      | .error x => .error x
      | .ok (ws, s2) => .ok ((va, toLe 4 (deferWord (leNat bs))) :: ws, s2)

/-- What each participant here receives. -/
def State.partResults (s : State) (ext : List Host.Cell) (srcs : List (List Byte)) (routes : List (List Nat)) (n : Nat) :
    List CollEntry → Except Miss (List PartResult × State)
  | [] => .ok ([], s)
  | e :: es =>
    let p := e.part
    let one : Except Miss (PartResult × State) :=
      match p.kind with
      | .a2a =>
        let a := acceptedRows p srcs routes p.rank
        let late := (List.range p.count).filter (deferred routes n p.cap p.rank)
        match s.deferRows e ext late with
        | .error x => .error x
        | .ok (ws, s1) =>
          .ok (⟨e, [(p.w 1, a.1), (p.w 1 + BitVec.ofNat 64 (p.cap * p.aux), a.2)] ++ ws, a.2.length / 4, late.length⟩, s1)
      | _ => .ok (⟨e, [(p.w 1, collResult p srcs)], 0, 0⟩, s)
    match one with
    | .error x => .error x
    | .ok (r, s1) =>
      match s1.partResults ext srcs routes n es with
      | .error x => .error x
      | .ok (rs, s2) => .ok (r :: rs, s2)

/-- The source buffers and ROUTE lists of the participants here. -/
def State.readSources (s : State) (ext : List Host.Cell) : List CollEntry → Except Miss (List (Nat × List Byte × List Byte) × State)
  | [] => .ok ([], s)
  | e :: es =>
    let p := e.part
    match s.engRead e.who ext (p.w 0) (p.count * p.size) with
    | .error x => .error (s.collMiss e x)
    | .ok (src, s1) =>
      match s1.engRead e.who ext (p.w 4) (if p.kind == .a2a then 2 * p.count else 0) with
      | .error x => .error (s.collMiss e x)
      | .ok (rt, s2) =>
        match s2.readSources ext es with
        | .error x => .error x
        | .ok (rs, s3) => .ok ((p.rank, src, rt) :: rs, s3)

/-- The writes of every participant resolved. -/
def State.resolveResults (s : State) (ext : List Host.Cell) :
    List PartResult → Except Miss (List (PartResult × List EngWrite) × State)
  | [] => .ok ([], s)
  | r :: rs =>
    match s.engTargets r.entry.who ext false r.writes with
    | .error x => .error (s.collMiss r.entry x)
    | .ok (ws, s1) =>
      match s1.resolveResults ext rs with
      | .error x => .error x
      | .ok (all, s2) => .ok ((r, ws) :: all, s2)

/-- The writes of every participant made. -/
def State.writeResults (s : State) (rs : List (PartResult × List EngWrite)) : State :=
  rs.foldl (fun s r => s.engWrite (s.collCtx r.1.entry) r.2) s

/-- The word that ends a participant's instance (R251). -/
def doneWord (err : Bool) (recv defer : Nat) : Word :=
  BitVec.ofNat 64 ((if err then 2 ^ 63 else 0) + recv % 2 ^ 31 * 2 ^ 32 + defer % 2 ^ 32)

/-- The done word of an entry written and set full in one action; an entry leaves its queue (R113, R251). Or the write is held
(R346). -/
def State.endColl (s : State) (ext : List Host.Cell) (e : CollEntry) (w : Word) : Except (Who × Nat) State :=
  let d := s.die e.die
  let s1 := (s.setDie e.die { d with colls := d.colls.filter (fun x => x.id != e.id) }).onTask e.uid (fun t => t.done e.id)
  match s1.engTarget e.who ext true e.doneVa 8 with
  | .error (code, va) =>
    if code = heldCode then .error (e.who, va)
    else .ok ((s1.onTask e.uid (fun t => t.late e.doneVa)).logLost e.who ext (s.collCtx e) code va)
  | .ok (ps, s2) => .ok (s2.announce e.uid e.doneVa ps w)

/-- Entries ended one after the other with the words given; or a write that is held. -/
def State.endColls (s : State) (ext : List Host.Cell) : List (CollEntry × Word) → Except (Who × Nat) State
  | [] => .ok s
  | e :: es => (s.endColl ext e.1 e.2).bind (fun s1 => s1.endColls ext es)

/-- What an instance gives: the results with their writes resolved, or the code of why it ends with ERR or is held (R247, R249
to R251). -/
def State.instanceResult (s : State) (ext : List Host.Cell) (es : List CollEntry) (far : List FarPart) :
    Except Miss (List (PartResult × List EngWrite) × State) :=
  match es with
  | [] => .error ⟨1, { plot := 0, tenant := 0, pl := 0 }, 0, 0⟩
  | e :: _ =>
    let p := e.part
    let parts := es.map CollEntry.part ++ far.map farPart
    if !parts.all (fun q => q.ok && p.agrees q) || !es.all (fun e => e.part.aligned) || far.any (·.fails) then .error (s.collBad e)
    else
      match s.readSources ext es with
      | .error x => .error x
      | .ok (own, s1) =>
        let all := own ++ far.map (fun f => (f.rank, f.source, f.route))
        let byRank := (List.range p.npart).map (fun r => (all.find? (fun a => a.1 == r)).getD (r, [], []))
        let srcs := byRank.map (fun a => a.2.1)
        let routes := byRank.map (fun a => wideElems 2 a.2.2)
        if routes.any (fun r => r.any (fun dst => p.npart ≤ dst && dst != 0xFFFF)) then .error (s.collBad e)
        else
          match s1.partResults ext srcs routes p.npart es with
          | .error x => .error x
          | .ok (rs, s2) => s2.resolveResults ext rs

/-- The done word of a participant's result. -/
def PartResult.word (r : PartResult) : Word := doneWord false r.recv r.defer

/-- The words of entries that end with ERR. -/
def errWords (es : List CollEntry) : List (CollEntry × Word) := es.map (fun e => (e, doneWord true 0 0))

/-- The results of an instance written: the done words follow at once, or once every write is at home (R219, R251). -/
def State.writeInstance (s : State) (ext : List Host.Cell) (rs : List (PartResult × List EngWrite)) : Except (Who × Nat) State :=
  let s1 := s.writeResults rs
  let span := (s.fresh, s1.fresh)
  if s1.unacked span then
    .ok (rs.foldl (fun s r => s.setColl { r.1.entry with sent := some (span, r.1.word) }) s1)
  else s1.endColls ext (rs.map (fun r => (r.1.entry, r.1.word)))

/-- Entries whose buffers are written end once the writes are at home, with ERR where one was lost behind the fabric (R251). -/
def State.landInstance (s : State) (ext : List Host.Cell) (es : List CollEntry) : Except (Who × Nat) State :=
  let spans := es.filterMap (fun e => e.sent.map (·.1))
  if spans.any s.unacked then .ok s
  else
    let s1 := spans.foldl State.noted s
    if spans.any (fun x => (s.lostIn x).isSome) then s1.endColls ext (errWords es)
    else s1.endColls ext (es.filterMap (fun e => e.sent.map (fun x => (e, x.2))))

/-- An instance completes: the buffers are written, then every done word (R251). Entries that ended with ERR write their
done words alone. While an access of it is held, it waits (R346). -/
def execCollectiveInstanceComplete (group inst : Nat) (far : List FarPart) (ext : List Host.Cell) (s : State) : Host.Outcome State Fault Refusal :=
  let es := ((List.range 4).flatMap (fun d => (s.die d).colls)).filter
    (fun e => e.started && e.inst.toNat == inst && (e.words.isEmpty || e.part.group == group))
  let bad := es.filter (·.err)
  .next (s.orHeld
    (if !bad.isEmpty then s.endColls ext (errWords bad)
    else if es.any (·.sent.isSome) then s.landInstance ext es
    else
      match s.instanceResult ext es far with
      | .error m =>
        if m.code = heldCode then .error (m.who, m.va) else (s.logLost m.who ext m.ctx m.code m.va).endColls ext (errWords es)
      | .ok (rs, s1) => s1.writeInstance ext rs))

/-! ## The sampler cores (R252, R253, R397) -/

/-- The random numerator of a sample: `u` is this over 2^53 (R252). -/
def sampleBits (seed pos : Word) : Nat :=
  let z0 := seed ^^^ (pos * 0x9E3779B97F4A7C15)
  let z1 := (z0 ^^^ (z0 >>> 30)) * 0xBF58476D1CE4E5B9
  let z2 := (z1 ^^^ (z1 >>> 27)) * 0x94D049BB133111EB
  ((z2 ^^^ (z2 >>> 31)) >>> 11).toNat

/-- Running sums, each rounded (R252). -/
def runningSums : BitVec 32 → List (BitVec 32) → List (BitVec 32)
  | _, [] => []
  | acc, w :: ws =>
    let a := round32 ((f32 acc).add (f32 w))
    a :: runningSums a ws

/-- The candidate that softmax sampling takes (R252). -/
def softmaxPick (u : Nat) (temp : BitVec 32) (cs : List (BitVec 32 × Nat)) : Nat :=
  let c0 := (cs.headD (0, 0)).1
  let ws := cs.map (fun c =>
    exp32 (round32 (Num.div (f32 (round32 (Num.add (f32 c.1) (f32 c0).negate))) (f32 temp))))
  let sums := match ws with | [] => [] | w :: rest => w :: runningSums w rest
  let uv : Num := if u = 0 then .zero false else .fin u (2 ^ 53)
  let t := round32 (uv.mul (f32 (sums.getLastD 0)))
  match sums.zipIdx.find? (fun e => (f32 t).lt (f32 e.1)) with
  | some e => e.2
  | none => cs.length - 1

/-- CODE and TOKEN of a draw over the pairs of the list (R252). -/
def sampleDraw (u : Nat) (temp : BitVec 32) (list : List (BitVec 32 × Nat)) : Nat × Nat :=
  let cs := list.filter (fun c => !(f32 c.1).isNan)
  let n := cs.length
  let tok (i : Nat) : Nat × Nat := (0, (cs.getD i (0, 0)).2)
  let negative : Bool := match f32 temp with
    | .nan => true
    | .zero _ => false
    | v => v.neg?
  if negative then (1, 0)
  else if n = 0 then (2, 0)
  else if temp &&& 0x7F800000 == 0 then tok 0
  else if temp == 0x7F800000 then tok (u * n / 2 ^ 53)
  else if (cs.headD (0, 0)).1 == 0x7F800000 then tok (u * (cs.filter (fun c => c.1 == 0x7F800000)).length / 2 ^ 53)
  else tok (softmaxPick u temp cs)

/-- The token-ready word (R253). -/
def tokenWord (r : Nat × Nat) : Word :=
  BitVec.ofNat 64 (2 ^ 63 + r.1 * 2 ^ 56 + (if r.1 = 0 then r.2 % 2 ^ 32 else 0xFFFFFFFF))

/-- The maker of a sample's accesses. -/
def SampleEntry.who (e : SampleEntry) : Who := { plot := e.plot, tenant := e.tenant, pl := e.pl }

/-- What a core draws for a request, and the machine after its reads (R252); or the read that is held (R346). -/
def State.draw (s : State) (ext : List Host.Cell) (e : SampleEntry) : Except (Who × Nat) ((Nat × Nat) × State) :=
  let lost (s : State) (code va : Nat) : Except (Who × Nat) ((Nat × Nat) × State) :=
    if code = heldCode then .error (e.who, va) else .ok ((3, 0), s.logLost e.who ext ((s.task? e.uid).elim 0 Task.no) code va)
  match s.engRead e.who ext e.req 32 with
  | .error (code, va) => lost s code va
  | .ok (bs, s1) =>
    let k := getBits (wordAt bs 16) 32 7
    if k = 0 || 64 < k then .ok ((1, 0), s1)
    else
      match s1.engRead e.who ext (wordAt bs 0) (8 * k) with
      | .error (code, va) => lost s1 code va
      | .ok (ls, s2) =>
        .ok (sampleDraw (sampleBits (wordAt bs 8) e.pos) ((wordAt bs 16).setWidth 32) ((wideElems 8 ls).map pairOf), s2)

/-- Whether the reads of a sample are in turn: every access that its task pushed before it has performed (R397). -/
def State.sampleReady (s : State) (e : SampleEntry) : Bool :=
  match s.task? e.uid with
  | none => true
  | some t => t.homeBelow e.seq

/-- A request of a sampler core that is done: it leaves its queue, and the register is filled with the bits of the token-ready word
(R252). -/
def State.endSample (s : State) (die : Nat) (e : SampleEntry) (w : Word) : State :=
  let d := s.die die
  let s1 := s.setDie die { d with samples := d.samples.filter (fun x => x.id != e.id) }
  (match e.prod with
    | none => s1
    | some id => s1.fillTask e.uid id (vec w) 0).onTask e.uid (fun t => t.done e.id)

/-- A request of a sampler core served: the token-ready word is written and set full, then the register is filled with the same
bits, behind the fabric once that word is at home (R252, R211); or an access of it is held (R346). -/
def State.serveSample (s : State) (die : Nat) (ext : List Host.Cell) (e : SampleEntry) : Except (Who × Nat) State :=
  match s.draw ext e with
  | .error x => .error x
  | .ok r =>
    let w := tokenWord r.1
    match r.2.engTarget e.who ext true e.readyVa 8 with
    | .error (code, va) =>
      if code = heldCode then .error (e.who, va)
      else
        .ok (((r.2.onTask e.uid (fun t => t.late e.readyVa)).logLost e.who ext ((s.task? e.uid).elim 0 Task.no) code va).endSample
          die e w)
    | .ok (ps, s2) =>
      let s3 := s2.announce e.uid e.readyVa ps w
      let span := (s2.fresh, s3.fresh)
      if s3.unacked span then
        let d := s3.die die
        .ok (s3.setDie die { d with samples := d.samples.map (fun x => if x.id = e.id then { e with sent := some (span, w) } else x) })
      else .ok (s3.endSample die e w)

/-- A sampler core serves one of the four requests that the cores hold, or fills the register of one whose word is at home (R252). -/
def execSampleServe (die : Nat) (ext : List Host.Cell) (s : State) : Host.Outcome State Fault Refusal :=
  let es := (s.die die).samples.take 4
  match es.find? (fun e => e.sent.any (fun x => !s.unacked x.1)), es.find? (fun e => e.sent.isNone && s.sampleReady e) with
  | some e, _ => .next (s.endSample die e ((e.sent.map (·.2)).getD 0))
  | none, some e => .next (s.orHeld (s.serveSample die ext e))
  | none, none => .next s

end Sys2Proof.Machine
end

