-- ==== Sys2Proof/Machine/Control.lean ====
section
/-! DEFINITION. Control flow: instruction fetch (R52, R256), branches (R107 to R109), hardware loops (R110), the barrier
(R111), schedule and fragment jumps (R112, R257, R259), `end` (R113), the CSR forms (R83 to R85, R114), and the bundle of a
header alone (R66). -/

namespace Sys2Proof.Machine

/-! ## Fetch (R52, R184, R256) -/

/-- Why a word of code is not fetched: the fetch faults at an address, its access ends in a fault record with a cause (R354), or it
is held at an admission point (R346). -/
inductive FetchStop where
  | fault (va : Nat)
  | lost (va pa cause : Nat)
  | held
deriving DecidableEq, Repr

/-- The bytes of the active plane's code at an address, where that lies in its code range (R256). -/
def State.planeCode (s : State) (t : Task) (va : Nat) : Option Word :=
  let pl := (s.plot t.plot).active
  let base := getBits (pl.word 8) 0 56
  if pl.valid && base ≤ va && va < base + 0x40000 then some (pl.word (0x1000 + (va - base))) else none

/-- A word of code in memory: an access of its line as its page says, which a slice serves or allocates (R172, R179, R180); from
the memory of another package a free word (DESIGN CHOICE, log entry 21). The line is looked up once in a bundle, at its first
word, `first`. -/
def State.fetchPiece (s : State) (va : Nat) (p : Piece) (first : Bool) : Except FetchStop (Word × State) :=
  let look (s : State) : State := if first then s.touch [p] else s
  if !s.far p then .ok (s.word p.pa, look s)
  else
    match s.pathTo p.pa with
    | .error c => .error (.lost (va % 2 ^ 56) p.pa c)
    | .ok (_, true) => .error .held
    | .ok (_, false) => .ok (if s.isRemote p.pa then Config.freeWord p.pa else s.word p.pa, look s)

/-- One word of code at an address, with its walk cached and its line looked up (R52, R184, R186). -/
def State.fetchWord (s : State) (t : Task) (va : Nat) (first : Bool) : Except FetchStop (Word × State) :=
  if va % 8 ≠ 0 then .error (.fault (va % 2 ^ 56))
  else
    match s.check t.who .fetch va with
    | .error _ => .error (.fault (va % 2 ^ 56))
    | .ok (pa, pte, es) =>
      if !pteX pte || pteFe pte then .error (.fault (va % 2 ^ 56))
      else
        let s1 := s.cacheWalk t.who va es
        match s.planeCode t va with
        | some w => .ok (w, s1)
        | none => s1.fetchPiece va ⟨s.localAddr pa, 8, false, policyOf 0 pte⟩ first

/-- The header word of a bundle. -/
def State.fetchHead (s : State) (t : Task) (va : Nat) : Except FetchStop (Word × State) := s.fetchWord t va true

/-- The words behind a header from an address on. -/
def State.fetchWords (t : Task) : Nat → Nat → State → Except FetchStop (List Word × State)
  | 0, _, s => .ok ([], s)
  | n + 1, va, s =>
    match s.fetchWord t va (va % 64 == 0) with
    | .error e => .error e
    | .ok (w, s1) =>
      match State.fetchWords t n (va + 8) s1 with
      | .error e => .error e
      | .ok (ws, s2) => .ok (w :: ws, s2)

/-- The instruction-fetch fault of the task on the stage: nothing of the bundle commits and SRES is 0 (R52). -/
def execInstructionFetchFault (addr : Word) (s : State) : Host.Outcome State Fault Refusal :=
  let s1 := s.trapTask s.stage.uid ⟨2, 0, s.cur.pc, none, some addr⟩ s.stage.cycle
  .next { s1 with stage := { s1.stage with halt := .stopped } }

/-- A bundle that is not fetched: the fetch fault, which a fault record of the fetch is taken as (DEDUCED, log entry 21), or the
bundle waits in the issue stage while the fetch is held. -/
def State.unfetched (s : State) (e : FetchStop) : Host.Outcome State Fault Refusal :=
  match e with
  | .fault a => execInstructionFetchFault (BitVec.ofNat 64 a) s
  | .lost a pa c => execInstructionFetchFault (BitVec.ofNat 64 a) (s.logFetch pa c)
  | .held => .next { s with stage := { s.stage with halt := .stall } }

/-- The bundle of a header alone: with no slot held it is charged 1 unit and performs only its YP and LEND (R66, R287). -/
def execHeaderAloneBundle (h : Word) (s : State) : Host.Outcome State Fault Refusal :=
  match decodeHeader h with
  | .error _ => .next (s.takeFault 1 h none)
  | .ok hd =>
    let s1 : State := { s with stage := { s.stage with header := hd } }
    if s.cur.flow.hold.any (·.valid) then .next s1
    else
      let s2 := s1.pay 1 0
      .next { s2 with stage := { s2.stage with charged := true } }

/-! ## Branches (R107, R108) -/

/-- The length of the bundle on the stage (R52). -/
def Stage.length (g : Stage) : Nat := bundleLength g.header.present

/-- A taken branch, which holds the issue stage for `extra` further cycles (R107). -/
def State.branchTo (s : State) (target : Word) (extra : Nat) : State :=
  { s with stage := { s.stage with branch := some target, extra := s.stage.extra + extra } }

/-- `br` (R108). -/
def execBr (x : Syl) (s : State) : Host.Outcome State Fault Refusal :=
  run .C 0x001 x plain (fun g s => .ok (s.branchTo (s.cur.pc + g.e.w) 1)) s
/-- `bri` (R108). -/
def execBri (x : Syl) (s : State) : Host.Outcome State Fault Refusal :=
  run .C 0x002 x plain (fun g s => .ok (s.branchTo g.b.w 1)) s
/-- `call` (R108). -/
def execCall (x : Syl) (s : State) : Host.Outcome State Fault Refusal :=
  run .C 0x003 x plain (fun g s =>
    match s.putS x.a 1 (s.cur.pc + BitVec.ofNat 64 s.stage.length) with
    | .error e => .error e
    | .ok s1 => .ok (s1.branchTo (s1.cur.pc + g.e.w) 1)) s
/-- `ret` (R108). -/
def execRet (x : Syl) (s : State) : Host.Outcome State Fault Refusal :=
  run .C 0x004 x plain (fun g s => .ok (s.branchTo g.b.w 1)) s

/-! ## Hardware loops (R110) -/

/-- Headers read from an address until one ends level `n`: how many, and the address after its bundle; none where 1,024
hold none; or how many were read before a fetch fault, and its address. Executing nothing, the scan looks at PRESENT and
LEND alone. -/
def State.scanLoop (t : Task) (n : Nat) : Nat → Nat → State → Except (Nat × FetchStop) (Option (Nat × Nat) × State)
  | 0, _, s => .ok (none, s)
  | fuel + 1, va, s =>
    match s.fetchHead t va with
    | .error e => .error (0, e)
    | .ok (w, s1) =>
      let next := va + bundleLength (w.setWidth 8)
      if getBits w 9 3 = n then .ok (some (1, next), s1)
      else
        match State.scanLoop t n fuel next s1 with
        | .error (k, e) => .error (k + 1, e)
        | .ok (none, s2) => .ok (none, s2)
        | .ok (some (k, a), s2) => .ok (some (k + 1, a), s2)

/-- A loop of level `n` with count `c` begins. A guarded-off form never comes here, so that its bundle may end the level
(DEDUCED, log entry 48). A scan that fails has held the stage for the headers that it read. -/
def State.beginLoop (s : State) (n c : Nat) : Except Stop State :=
  let after := s.cur.pc + BitVec.ofNat 64 s.stage.length
  let set (s : State) : State := s.onCur (fun t => { t with
    csr := { t.csr with loopc := t.csr.loopc.setIfInBounds (n - 1) (BitVec.ofNat 64 c) }
    flow := { t.flow with loopStart := t.flow.loopStart.setIfInBounds (n - 1) after } })
  if s.stage.header.lend.toNat = n then .error (.fault 1 none)
  else if c ≠ 0 then .ok (set s)
  else
    match State.scanLoop s.cur n 1024 after.toNat s with
    | .error (k, .fault va) => .error (.after k 2 (some (BitVec.ofNat 64 va)))
    | .error (k, .lost va pa cause) => .error (.lost k (BitVec.ofNat 64 va) pa cause)
    | .error (_, .held) => .error .suspend
    | .ok (none, _) => .error (.after 1024 1 none)
    | .ok (some (k, a), s1) =>
      let s2 := set s1
      .ok { s2 with stage := { s2.stage with skip := some (BitVec.ofNat 64 a), extra := s2.stage.extra + k } }

/-- `loop` (R110). -/
def execLoop (x : Syl) (s : State) : Host.Outcome State Fault Refusal :=
  run .C 0x008 x plain (fun g s => s.beginLoop x.b.toNat (min g.e.w.toNat (2 ^ 32 - 1))) s
/-- `loopl` (R110). -/
def execLoopl (x : Syl) (s : State) : Host.Outcome State Fault Refusal :=
  run .C 0x009 x plain (fun g s =>
    s.beginLoop x.b.toNat (ceilDiv (getBits s.cur.csr.live 0 11) (max 1 (min g.e.w.toNat 1024)))) s

/-! ## The barrier (R111) -/

/-- The wait of `bar`: until the barrier lets the task pass. -/
def waitBar (_ : Args) (s : State) : Option Stop := if s.cur.job.passed then none else some (.block .barrier)

/-- Whether a task that waits at the barrier has arrived: its stores have performed at the gang's scope. -/
def Task.barReady (t : Task) : Bool := t.q.stores.isEmpty && t.q.sdata.isEmpty && t.q.buffer.isEmpty

/-- `bar` (R111). -/
def execBar (x : Syl) (s : State) : Host.Outcome State Fault Refusal :=
  runWait .C 0x010 x waitBar plain (fun _ s =>
    .ok (s.onCur (fun t => { t with job := { t.job with passed := false, arrived := false } }))) s

/-- The barrier of a gang completes when every member that is neither Done nor Aborted has arrived (R111). -/
def execBarrierComplete (slot group : Nat) (s : State) : Host.Outcome State Fault Refusal :=
  let mine (t : Task) : Bool := t.job.slot == slot && t.job.group == group && t.phase != .aborted
  let gang := s.tasks.filter (fun e => mine e.2)
  if gang.isEmpty || !gang.all (fun e => e.2.job.arrived) then .next s
  else
    let f (t : Task) : Task := if mine t then { t with job := { t.job with arrived := false, passed := true } } else t
    .next { s with tasks := Tab.mapVal s.tasks (fun _ t => f t) }

/-! ## Schedules and fragments (R112, R257, R259) -/

/-- An entry of the schedule table of a plane. -/
def Plane.sched (p : Plane) (i : Nat) : Word := p.word (0x41000 + 8 * i)

/-- The target of phase `j` of a kernel with `rows` live rows (R257); none for the schedule-table fault. -/
def Plane.phaseTarget (p : Plane) (kernel j rows : Nat) : Option Word :=
  let ke := p.word (0x100 + 8 * (kernel % 64))
  let entry (c : Nat) : Word := p.sched (getBits ke 32 10 + 8 * j + c)
  if !p.valid || !ke.getLsbD 63 || getBits ke 48 8 ≤ j then none
  else
    let c := if rows = 0 then (List.range 8).find? (fun c => (entry c).getLsbD 63)
      else some (((List.range 7).find? (fun c => (entry c).getLsbD 63 && rows ≤ 16 * 2 ^ c)).getD 7)
    match c with
    | none => none
    | some c => if (entry c).getLsbD 63 then some (BitVec.ofNat 64 (getBits (entry c) 0 56)) else none

/-- `phase` (R112). -/
def execPhase (x : Syl) (s : State) : Host.Outcome State Fault Refusal :=
  run .C 0x011 x plain (fun _ s =>
    match s.curPlane.phaseTarget s.cur.job.kernel x.d.toNat (getBits s.cur.csr.live 0 11) with
    | none => .error (.fault 23 none)
    | some t => .ok (s.branchTo t 2)) s

/-- A jump through the fragment table (R259). -/
def State.fragment (s : State) (i : Nat) : Except Stop State :=
  let p := s.curPlane
  let e := p.word (0x43200 + 8 * i)
  if !p.valid || 256 ≤ i || !e.getLsbD 63 then .error (.fault 23 none)
  else .ok (s.branchTo (BitVec.ofNat 64 (getBits e 0 56)) 2)

/-- `jtab` (R259). -/
def execJtab (x : Syl) (s : State) : Host.Outcome State Fault Refusal :=
  run .C 0x020 x plain (fun g s => s.fragment g.b.w.toNat) s
/-- `jtab.res` (R259). -/
def execJtabRes (x : Syl) (s : State) : Host.Outcome State Fault Refusal :=
  run .C 0x020 x plain (fun g s =>
    if !g.b.w.getLsbD 63 then .error (.fault 23 none) else s.fragment (getBits g.b.w 48 8)) s

/-! ## Retirement (R113) -/

/-- A task's lease on its way to be free: it is released once its token is there and its queue has run (R113, R152). -/
def State.releaseLease (s : State) (plot uid : Nat) : State :=
  let p := s.plot plot
  match p.leaseOf uid with
  | none => s
  | some (e, l) =>
    if l.pending then s
    else
      let s1 := s.setPlot plot { p with leases := Tab.set p.leases e { l with releasing := true } }
      if l.cmds.isEmpty then s1.freeLease plot e else s1

/-- `end` (R113): recorded errors are raised first (R164, R244). -/
def execEndTask (x : Syl) (s : State) : Host.Outcome State Fault Refusal :=
  run .C 0x012 x plain (fun _ s =>
    let y := s.tiller s.cur.tiller
    match s.acreError s.stage.uid, y.firstErr (y.owned s.stage.uid) with
    | some e, _ => .error (.record 19 e.addr e.syl none)
    | none, some (n, e) => .error (e.stop n)
    | none, none =>
      let s1 := s.releaseLease s.cur.plot s.stage.uid
      .ok { s1 with stage := { s1.stage with ending := true } }) s

/-- Entries without a partner leave the store queues (R196). -/
def Queues.dropUnpaired (q : Queues) : Queues :=
  let n := min (countSta q.stores) q.sdata.length
  let keep (acc : List StoreAcc × Nat) (e : StoreAcc) : List StoreAcc × Nat :=
    match e with
    | .sta .. => if acc.2 < n then (acc.1 ++ [e], acc.2 + 1) else acc
    | .marker .. => (acc.1 ++ [e], acc.2)
  { q with stores := (q.stores.foldl keep ([], 0)).1, sdata := q.sdata.take n }

/-- Whether everything of an ended task is complete but its maps (R113), its latches delivered (R331). -/
def State.ended (s : State) (uid : Nat) (t : Task) : Bool :=
  t.q.stores.isEmpty && t.q.sdata.isEmpty && t.q.buffer.isEmpty && t.flow.producers.isEmpty && t.q.sigcs.isEmpty &&
    t.job.work.isEmpty && t.flow.latches.isEmpty && t.flow.inflight.isEmpty && !t.q.streams.any (fun e => e.2.out && !e.2.buf.isEmpty) &&
    !(s.plot t.plot).leases.any (fun e => e.2.holder.is uid) && !(s.plot t.plot).requests uid

/-- A task that has executed `end` goes on to Done (R113): its unpaired entries and its lease go; a Drill error recorded
meanwhile is raised at slot C (R244); then its maps are released, its budgets return and its group may complete. -/
def execTaskDone (c : Nat) (s : State) : Host.Outcome State Fault Refusal :=
  match s.task? c with
  | none => .next s
  | some t =>
    match t.phase with
    | .ended =>
      let q := t.q.dropUnpaired
      if q != t.q then .next (s.setTask c { t with q := q })
      else
        let s1 := s.releaseLease t.plot c
        if !s1.ended c t then .next s1
        else
          let y := s1.tiller t.tiller
          match y.firstErr (y.owned c) with
          | some (n, e) =>
            .next ((s1.clearMapError t.tiller n).trapTask c ⟨e.code, 7, t.pc, some e.syl, some e.addr⟩ s.cycle)
          | none =>
            let s2 := s1.setTiller t.tiller (y.release (y.owned c))
            .next (((s2.returnUnits t.job.slot (getBits t.csr.bi 0 48) (getBits t.csr.bm 0 48)).orphan c).leave c false)
    | _ => .next s

/-! ## Control registers (R83 to R85, R114) -/

/-- The privilege levels of a control register: to read it, and to write it where that is possible (R83). -/
def csrLevels (n : Nat) : Option (Nat × Option Nat) :=
  if n ≤ 1 || n = 4 then some (0, some 1)
  else if n = 2 || n = 3 || n = 5 then some (0, some 2)
  else if n = 6 || (8 ≤ n && n ≤ 0xB) then some (0, some 0)
  else if 0x10 ≤ n && n ≤ 0x12 then some (0, some 1)
  else if 0x18 ≤ n && n ≤ 0x1A then some (0, none)
  else if n = 0x1B || n = 0x1C then some (0, some 2)
  else if n = 0x20 || n = 0x21 then some (1, some 1)
  else none

/-- A control register by number. -/
def Csrs.get (c : Csrs) (n : Nat) : Word :=
  if n = 0 then c.tsw
  else if n = 1 then c.pix
  else if n = 2 then c.bi
  else if n = 3 then c.bm
  else if n = 4 then c.ypmax
  else if n = 5 then c.ypcnt
  else if n = 6 then c.live
  else if 8 ≤ n && n ≤ 0xB then c.loopc.getD (n - 8) 0
  else if n = 0x10 then c.spillbase
  else if n = 0x11 then c.spillsize
  else if n = 0x12 then c.ovfptr
  else if n = 0x18 then c.taskid
  else if n = 0x19 then c.gridid
  else if n = 0x1A then c.tcoord
  else if n = 0x1B then c.tenant
  else if n = 0x1C then c.cap
  else if n = 0x20 then c.faddr
  else if n = 0x21 then c.fsyl
  else 0

/-- The RW and W1C fields of TSW written: `w` holds the RW fields, `ones` the W1C bits to clear (R84). -/
def writeTsw (old w ones : Word) : Word :=
  let a := old &&& ~~~(ones &&& 0x380)
  let b := putBits a 11 5 (getBits w 11 5)
  let c := if getBits w 0 4 < 8 then putBits b 0 4 (getBits w 0 4) else b
  if w.getLsbD 6 then putBit c 6 true
  else if a &&& 0x380 != 0 then c
  else putBit c 6 false

/-- A control register written by number: its RW fields from `w`, its W1C fields by `ones` (R83 to R85). -/
def Csrs.put (c : Csrs) (n : Nat) (w ones : Word) : Csrs :=
  let low (k : Nat) : Word := BitVec.ofNat 64 (getBits w 0 k)
  if n = 0 then { c with tsw := writeTsw c.tsw w ones }
  else if n = 1 then { c with pix := low 32 }
  else if n = 2 then { c with bi := low 48 }
  else if n = 3 then { c with bm := low 48 }
  else if n = 4 then { c with ypmax := BitVec.ofNat 64 (max 256 (getBits w 0 32)) }
  else if n = 5 then { c with ypcnt := low 32 }
  else if n = 6 then { c with live := low 11 }
  else if 8 ≤ n && n ≤ 0xB then { c with loopc := c.loopc.setIfInBounds (n - 8) (low 32) }
  else if n = 0x10 then { c with spillbase := w &&& 0xFFFC0 }
  else if n = 0x11 then { c with spillsize := w &&& 0xFFFC0 }
  else if n = 0x12 then { c with ovfptr := w &&& 0xFFFFFFFFFFFFC0 }
  else if n = 0x1B then { c with tenant := low 6 }
  else if n = 0x1C then { c with cap := w &&& 0x80FFFFFFFFFFFFFF }
  else if n = 0x20 then { c with faddr := low 56 }
  else if n = 0x21 then { c with fsyl := w }
  else c

/-- `csrr` (R114): the register as it stands for its bundle. -/
def execCsrr (x : Syl) (s : State) : Host.Outcome State Fault Refusal :=
  run .C 0x018 x plain (fun g s =>
    match csrLevels g.e.w.toNat with
    | none => .error (.fault 1 none)
    | some (r, _) =>
      if s.cur.pl < r then .error (.fault 5 none) else s.putS x.a 2 (s.stage.csr.get g.e.w.toNat)) s

/-- Exhaustion set again where the bundle's charges left a budget at 0 (R91). -/
def Csrs.reExhaust (c : Csrs) (paid : Nat × Nat) : Csrs :=
  let ei := 0 < paid.1 && getBits c.bi 0 48 == 0
  let em := 0 < paid.2 && getBits c.bm 0 48 == 0
  { c with tsw := raise em 8 (raise ei 7 (raise (ei || em) 6 c.tsw)) }

/-- A CSR write: `f` gives the RW value from the old and the operand, `ones` the W1C bits. -/
def csrForm (opc : Nat) (f : Word → Word → Word) (ones : Word → Word) (x : Syl) (s : State) :
    Host.Outcome State Fault Refusal :=
  run .C opc x plain (fun g s =>
    let n := g.e.w.toNat
    let c := s.cur.csr
    let w := f (c.get n) g.b.w
    match csrLevels n with
    | none => .error (.fault 1 none)
    | some (_, none) => .error (.fault 5 none)
    | some (_, some l) =>
      if s.cur.pl < l then .error (.fault 5 none)
      else if n = 0x11 && 12288 < getBits c.spillbase 6 14 + getBits w 6 14 then .error (.fault 5 none)
      else
        let c1 := c.put n w (ones g.b.w)
        let c2 := if n = 0 then c1.reExhaust s.stage.paid else c1
        .ok (s.onCur (fun t => { t with csr := c2 }))) s

/-- `csrw` (R114). -/
def execCsrw (x : Syl) (s : State) : Host.Outcome State Fault Refusal := csrForm 0x019 (fun _ b => b) id x s
/-- `csrs` (R114). -/
def execCsrs (x : Syl) (s : State) : Host.Outcome State Fault Refusal := csrForm 0x01A (fun o b => o ||| b) id x s
/-- `csrc` (R114). -/
def execCsrc (x : Syl) (s : State) : Host.Outcome State Fault Refusal :=
  csrForm 0x01B (fun o b => o &&& ~~~b) (fun _ => 0) x s

end Sys2Proof.Machine
end

