-- ==== Sys2Proof/Machine/Range.lean ====
section
/-! DEFINITION. The memory-range forms of the V class (R140 to R145): their checks, their element groups, their
suspension on the issue stage and their completion. -/

namespace Sys2Proof.Machine

/-! ## Shapes (R140) -/

/-- The bytes of one element. -/
def rangeSize (opc : Nat) (x : Syl) : Nat :=
  if opc = 0x0A1 then (if x.d.toNat / 32 % 4 = 0 then 4 else if x.d.toNat / 32 % 4 = 1 then 2 else 1)
  else if opc = 0x0A4 then tagWidth x.d.toNat / 8
  else 4

/-- The elements of one group. -/
def rangePer (opc : Nat) (x : Syl) : Nat := if opc = 0x0A4 then 16 else 128 / rangeSize opc x

/-- The elements of the whole form. -/
def rangeTotal (opc : Nat) (x : Syl) (count : Nat) : Nat :=
  if opc = 0x0A4 then vecWidth x / tagWidth x.d.toNat else count

/-- The number of element groups. -/
def rangeGroups (opc : Nat) (x : Syl) (count : Nat) : Nat := ceilDiv (rangeTotal opc x count) (rangePer opc x)

/-- The format tag of the elements of `vprunem`. -/
def pruneFmt (x : Syl) : Nat := [31, 1, 4, 22].getD (x.d.toNat / 32 % 4) 31

/-- M of `vprunem`. -/
def pruneM (x : Syl) : Nat := 2 ^ (x.d.toNat / 8 % 4 + 1)

/-- N of `vprunem`. -/
def pruneN (x : Syl) : Nat := x.d.toNat % 8 + 1

/-- Kt of R145: the kept values of a whole count. -/
def pruneTotal (x : Syl) (count : Nat) : Nat := count / pruneM x * pruneN x + min (pruneN x) (count % pruneM x)

/-! ## Checks (R141) -/

/-- The checks of the first cycle. -/
def rangeCheck (opc : Nat) (x : Syl) (addr : Word) (count : Nat) (extra : Word) : Option Stop :=
  let z := rangeSize opc x
  if opc != 0x0A4 && (if opc = 0x0A2 then vecWidth x else 65536) < count then some (.fault 20 none)
  else if addr.toNat % z ≠ 0 then some (.fault 6 (some addr))
  else if (opc = 0x0A1 || opc = 0x0A4) && extra.toNat % z ≠ 0 then
    some (.fault 6 (some (if opc = 0x0A1 then extra else addr)))
  else none

/-- The partial result before the first group (R145). -/
def rangeStart (opc : Nat) (x : Syl) (word : Word) (extra : Word) : RangeState where
  valid := false
  word := word
  group := 0
  acc := if opc = 0x0A3 && x.d.toNat / 4 % 4 = 0 then extra &&& 0xFFFFFFFF else extra
  pairs := if opc = 0x0A0 then List.replicate x.d.toNat viFiller else []
  bits := 0
  kept := 0

/-! ## The result -/

/-- The result of a form from its partial result, into field A (R145). -/
def State.rangeResult (s : State) (opc : Nat) (x : Syl) (p : RangeState) : Except Stop State :=
  if opc = 0x0A0 then s.putReg x.a.toNat 4 (pairReg x p.pairs) 36
  else if opc = 0x0A1 then s.putS x.a 4 (BitVec.ofNat 64 p.kept)
  else if opc = 0x0A2 then s.putReg x.a.toNat 4 p.bits 0
  else if opc = 0x0A3 then s.putS x.a 4 p.acc
  else s.putReg x.a.toNat 4 p.bits (x.d.setWidth 6)

/-- The default charge of a range form (R144). -/
def rangeCost : Cost := ⟨0, 0, 1, 1, 0⟩

/-- The range state in the save area (R144, R335): syllable, validity and group, accumulator or output position, kept count, and
the list or the bits; the places inside are the model's (DESIGN CHOICE, log entry 10). -/
def RangeState.words (p : RangeState) : List Byte :=
  toLe 8 p.word.toNat ++ toLe 8 (p.valid.toNat + 2 ^ 32 * p.group) ++ toLe 8 p.acc.toNat ++ toLe 8 p.kept ++
    toLe 128 (if p.pairs.isEmpty then p.bits.toNat else packElems 64 (p.pairs.map pairBits)) ++ List.replicate 0x60 0

/-- A range state kept by a task, and in its save area where it has one (R144). -/
def State.setRange (s : State) (uid : Nat) (p : RangeState) : State :=
  match s.task? uid with
  | none => s
  | some t =>
    if p == t.flow.range then s
    else
      let a := s.saveBase t.no
      let s1 := if a = 0 then s else s.store (a + 0x1080) p.words
      s1.setTask uid { t with flow := { t.flow with range := p } }

/-- The last group is done, in cycle `at_`: operands are consumed, the result lands four cycles on, PIX and the range state
clear, the FIXED part counts for the slot, and what MIN requires more is charged (R142, R144, R288). -/
def State.rangeFinish (s : State) (opc : Nat) (x : Syl) (word : Word) (p : RangeState) (at_ : Nat) : State :=
  match s.readArgs x (usedKinds .V opc x) with
  | .error st => s.stop st word
  | .ok (_, s1) =>
    let issued := s1.stage
    match ({ s1 with stage := { issued with cycle := at_, second := false } } : State).rangeResult opc x p with
    | .error st => s.stop st word
    | .ok s2 =>
      let c := s2.costOf .V opc rangeCost
      let s3 : State := { s2 with stage := { s2.stage with
        cycle := issued.cycle, second := issued.second, halt := .run, range := none, ranged := at_ + 1 } }
      let s4 := (s3.pay c.fixed 0).payNow (c.min_ - (c.fixed + p.group * 2 ^ c.shift)) 0
      let s5 := s4.onCur (fun t => { t with csr := { t.csr with pix := 0 } })
      (if s5.cur.flow.range.valid then s5.setRange s5.stage.uid RangeState.zero else s5).commit x word

/-- A range form resumes at a re-entry of its bundle, from a range state that holds its own word (R144). -/
def Task.resumes (t : Task) (word : Word) : Bool :=
  t.flow.again && t.csr.pix != 0 && t.flow.range.valid && t.flow.range.word == word

/-- The task on the stage with PIX 0. -/
def State.zeroPix (s : State) : State := s.onCur (fun t => { t with csr := { t.csr with pix := 0 } })

/-- A range form: checked, then it keeps the issue stage until its last group is done, the first of them at the earliest in
the cycle behind its issue; its FIXED part is charged at issue (R141, R142, R144, R288). -/
def rangeForm (opc : Nat) (x : Syl) (s : State) : Host.Outcome State Fault Refusal :=
  let word := pack (BitVec.ofNat 10 opc) x
  match s.task? s.stage.uid with
  | none => .next s
  | some t =>
    if !s.stage.regs.guard x then .next (s.guardedOff .V opc)
    else
      match s.checkSlot t .V opc x with
      | .error st => .next (s.stop st word)
      | .ok _ =>
        match s.readArgs x (usedKinds .V opc x) with
        | .error st => .next (s.stop st word)
        | .ok (g, s1) =>
          let count := getBits g.c.w 0 32
          let resume := t.resumes word
          let s0 := if resume then s else s.zeroPix
          let tagOk := opc != 0x0A4 || g.c.tag == 29 || g.c.tag == 30 || g.c.tag == 34
          if !s.stage.checked && t.invalidating then .next (s.stop (.block .transCache) word)
          else if !tagOk then .next (s.stop tagFault word)
          else
            match rangeCheck opc x g.b.w count g.e.w with
            | some st => .next (s.zeroPix.stop st word)
            | none =>
              let start := rangeStart opc x word g.e.w
              match s1.rangeResult opc x start with
              | .error st => .next (s.stop st word)
              | .ok _ =>
                let part := if resume then { t.flow.range with group := t.csr.pix.toNat } else start
                let fixed := (s.costOf .V opc rangeCost).fixed
                let first := max (max s.stage.base s.stage.ranged) s.cycle
                if rangeGroups opc x count ≤ part.group then .next (s0.rangeFinish opc x word part first)
                else
                  let s2 := s0.owe .suspend (fixed, 0)
                  let r : RangeRun := ⟨word, g.b.w, count, g.e.w, g.c.v, g.c.tag.toNat, part, max first (s.stage.base + 1)⟩
                  .next { s2 with stage := { s2.stage with halt := .suspended, range := some r } }

/-- `vtopkm` (R145). -/
def execVtopkm (x : Syl) (s : State) : Host.Outcome State Fault Refusal := rangeForm 0x0A0 x s
/-- `vprunem` (R145). -/
def execVprunem (x : Syl) (s : State) : Host.Outcome State Fault Refusal := rangeForm 0x0A1 x s
/-- `vcmpm` (R145). -/
def execVcmpm (x : Syl) (s : State) : Host.Outcome State Fault Refusal := rangeForm 0x0A2 x s
/-- `vredm` (R145). -/
def execVredm (x : Syl) (s : State) : Host.Outcome State Fault Refusal := rangeForm 0x0A3 x s
/-- `vgathm` (R145). -/
def execVgathm (x : Syl) (s : State) : Host.Outcome State Fault Refusal := rangeForm 0x0A4 x s

/-! ## One element group -/

/-- The reads of group `k`: address and bytes of each. An element of `vgathm` whose index lies past the index register
reads nothing, and one past the form's width but inside the register is read there (DESIGN CHOICE, log entries 5 and 17). -/
def rangeReads (opc : Nat) (x : Syl) (r : RangeRun) (k : Nat) : List (Option (Word × Nat)) :=
  let z := rangeSize opc x
  let per := rangePer opc x
  let n := min per (rangeTotal opc x r.count - k * per)
  if opc = 0x0A4 then
    (List.range n).map (fun j =>
      let i := k * per + j
      let wi := tagWidth r.indexTag
      if 1024 < wi * (i + 1) then none
      else some (r.addr + BitVec.ofInt 64 (elemInt r.indexTag (elemAt r.index wi i) * r.extra.toNat), z))
  else [some (r.addr + BitVec.ofNat 64 (128 * k), n * z)]

/-- The parts of an access of a form that keeps the issue stage, each page's lines translated and then held against its FE bit,
so that the first failing address comes first (R143, R184). -/
def State.pageWise (s : State) (t : Task) (k : Acc) (hint : Nat) : List (Nat × Nat) → Except (Nat × Nat) Resolved
  | [] => .ok ⟨.mem [], [], none⟩
  | (va, n) :: rest =>
    match s.resolvePlain t k va n hint with
    | .error e => .error e
    | .ok r =>
      let ps := (if k == .read then s.loadTarget t va n r.tgt else r.tgt).pieces
      if ps.any (·.fe) then .error (13, va)
      else
        let t1 : Task := match r.ovf with
          | none => t
          | some o => { t with csr := { t.csr with ovfptr := o } }
        match s.pageWise t1 k hint rest with
        | .error e => .error e
        | .ok q => .ok ⟨.mem (ps ++ q.tgt.pieces), r.walks ++ q.walks, q.ovf.orElse (fun _ => r.ovf)⟩

/-- One access of a range form: windows and sync pages are refused (R143, R187). -/
def State.rangeAccess (s : State) (t : Task) (k : Acc) (va : Word) (len hint : Nat) : Except (Nat × Nat) Resolved :=
  if inWindow va.toNat then .error (14, va.toNat) else s.pageWise t k hint (pageParts va.toNat len)

/-- What keeps a group from being done: its fault, that it waits for room or for a line that a launch holds back, or that an
access of it is held at an admission point. -/
inductive Bar where
  | fault (code va : Nat)
  | wait
  | held (va : Word) (ps : List Piece)
deriving DecidableEq, Repr

/-- The reads of a group made: the bytes, and the machine with translations cached and lines looked up. A read behind
the fabric that ends in a fault record gives zeros (R354); bytes that do not exist are free (DESIGN CHOICE, log entry 5). -/
def State.rangeFetch (s : State) (uid : Nat) (t : Task) (ext : List Host.Cell) (x : Syl) (z : Nat) :
    List (Option (Word × Nat)) → Except Bar (List Byte × State)
  | [] => .ok ([], s)
  | none :: rest =>
    match s.mint.rangeFetch uid t ext x z rest with
    | .error e => .error e
    | .ok (bs, s1) => .ok (toLe z (Config.freeWord s.fresh).toNat ++ bs, s1)
  | some (va, len) :: rest =>
    match s.rangeAccess t .read va len x.ch.toNat with
    | .error e => .error (.fault e.1 e.2)
    | .ok r =>
      let ps := r.tgt.pieces
      if s.piecesHeld uid t.q.seq ps then .error .wait
      else if ps.any s.heldPiece then .error (.held va ps)
      else
        let s1 := (s.resolved uid r).touch ps
        let lost := s.lostPiece ext ps
        let s2 := match lost with
          | some (pa, cause) => (s1.faultRecord uid va pa (s.recordGroup pa) cause).ungone pa
          | none => s1
        let here := if lost.isSome then List.replicate len 0 else s.loadPiecesFrom ext t.q ps
        match s2.rangeFetch uid t ext x z rest with
        | .error e => .error e
        | .ok (bs, s3) => .ok (here ++ bs, s3)

/-- A write of a range form put into the store buffer (R143), where it has room. -/
def State.rangeWrite (s : State) (uid : Nat) (x : Syl) (va : Word) (bs : List Byte) : Except Bar State :=
  if bs.isEmpty then .ok s
  else
    match s.task? uid with
    | none => .error .wait
    | some t =>
      match s.rangeAccess t .write va bs.length x.ch.toNat with
      | .error e => .error (.fault e.1 e.2)
      | .ok r =>
        let q := t.q.bufferAll (splitStore va r.tgt.pieces bs) t.q.seq
        if 16 < q.buffer.length || s.piecesHeld uid t.q.seq r.tgt.pieces then .error .wait
        else .ok ((s.setTask uid { t with q := q }).resolved uid r)

/-- The kept values and metadata of the elements of one group (R139, R145). -/
def pruneGroup (x : Syl) (es : List Nat) : Nat → List (Nat × Nat)
  | 0 => []
  | fuel + 1 =>
    if es.isEmpty then []
    else
      let g := es.take (pruneM x)
      let t := pruneFmt x
      (keepOf (pruneN x) (g.map (elemValue t))).map (fun j => (keptElem t (g.getD j 0), j)) ++
        pruneGroup x (es.drop (pruneM x)) fuel

/-- The elements of bytes. -/
def elemsOf (z : Nat) (bs : List Byte) : List Nat :=
  (List.range (bs.length / z)).map (fun i => leNat ((bs.drop (z * i)).take z))

/-- A relation of `vcmpm` (R145). -/
def rangeRel (rel : Nat) (t a y : Nat) : Bool :=
  if rel = 0 then relEq t a y
  else if rel = 1 then !relEq t a y
  else if rel = 2 then relLt t a y
  else if rel = 3 then relLe t a y
  else if rel = 4 then relLt t y a
  else relLe t y a

/-- The accumulator of `vredm` after a group (R145). -/
def redGroup (op fmt : Nat) (acc : Word) (es : List Nat) : Word :=
  if fmt = 0 then
    let a := acc.setWidth 32
    (if op = 0 then round32 ((f32 a).add (f32 (round32 (exactSum (es.map val)))))
     else if op = 1 then (es.map pat).foldl fmax32 a
     else (es.map pat).foldl fmin32 a).setWidth 64
  else
    let vs := es.map (elemInt (if fmt = 1 then 29 else 30))
    let a : Int := if fmt = 1 then acc.toInt else acc.toNat
    BitVec.ofInt 64 (if op = 0 then vs.foldl (· + ·) a else if op = 1 then vs.foldl max a else vs.foldl min a)

/-- The partial result after the elements of group `k`, for the forms that write no memory (R145). -/
def rangeStep (opc : Nat) (x : Syl) (r : RangeRun) (k : Nat) (es : List Nat) : RangeState :=
  let p := r.part
  let k0 := k * rangePer opc x
  if opc = 0x0A0 then
    let new := es.zipIdx.map (fun e => (pat e.1, (r.extra + BitVec.ofNat 64 (k0 + e.2)).toNat % 2 ^ 32))
    { p with pairs := bestPairs x.d.toNat (p.pairs ++ new) }
  else if opc = 0x0A2 then
    let t := if x.d.getLsbD 3 then 29 else 31
    let bs := es.map (fun a => (rangeRel (x.d.toNat % 8) t a (bitsOf r.extra.toNat 0 32)).toNat)
    { p with bits := p.bits ||| BitVec.ofNat 1024 (packElems 1 bs * 2 ^ k0) }
  else if opc = 0x0A3 then { p with acc := redGroup (x.d.toNat % 4) (x.d.toNat / 4 % 4) p.acc es }
  else
    let w := tagWidth x.d.toNat
    { p with bits := p.bits ||| BitVec.ofNat 1024 (packElems w es * 2 ^ (k0 * w)) }

/-- One group done on the stage: the machine, the partial result, and the BM units. -/
def State.rangeGroup (s : State) (opc : Nat) (x : Syl) (r : RangeRun) (t : Task) (ext : List Host.Cell) :
    Except Bar (State × RangeState × Nat) :=
  let k := r.part.group
  let z := rangeSize opc x
  match s.rangeFetch s.stage.uid t ext x z (rangeReads opc x r k) with
  | .error e => .error e
  | .ok (bs, s1) =>
    if opc != 0x0A1 then .ok (s1, rangeStep opc x r k (elemsOf z bs), ceilDiv bs.length 64)
    else
      let kept := pruneGroup x (elemsOf z bs) bs.length
      let vals := kept.flatMap (fun e => toLe z e.1)
      let meta_ := kept.map (fun e => BitVec.ofNat 8 e.2)
      let base := r.extra + BitVec.ofNat 64 (ceil64 (pruneTotal x r.count * z) + r.part.kept)
      match s1.rangeWrite s.stage.uid x r.part.acc vals with
      | .error e => .error e
      | .ok s2 =>
        match s2.rangeWrite s.stage.uid x base meta_ with
        | .error e => .error e
        | .ok s3 =>
          let p : RangeState :=
            { r.part with acc := r.part.acc + BitVec.ofNat 64 vals.length, kept := r.part.kept + kept.length }
          .ok (s3, p, ceilDiv bs.length 64 + ceilDiv (vals.length + meta_.length) 64)

/-- The stage of a suspended bundle put back, or gone where the bundle has stopped. -/
def State.shelve (s : State) (tl : Nat) : State :=
  { s with held := if s.stage.halt == .stopped then Tab.erase s.held tl else Tab.set s.held tl s.stage }

/-- A fault at group `k`: PIX and the range state say where to resume (R144). The slot is not charged its FIXED part then, as
the slots from SRES on are charged at the re-entry (R288). -/
def State.rangeFault (s : State) (r : RangeRun) (code va : Nat) : State :=
  let k := r.part.group
  let s1 :=
    if k = 0 then s
    else
      (s.onCur (fun t => { t with csr := { t.csr with pix := BitVec.ofNat 64 k } })).setRange s.stage.uid
        { r.part with valid := true, word := r.word }
  let s2 : State := { s1 with stage := { s1.stage with range := none } }
  s2.takeFault code r.word (some (BitVec.ofNat 64 va))

/-- The next group of the range form that holds a tiller's stage is done: one in a cycle at most (R142 to R144). -/
def execRangeGroupComplete (c : Nat) (ext : List Host.Cell) (s : State) : Host.Outcome State Fault Refusal :=
  match s.held.find? (fun h => h.2.uid == c && h.2.halt == .suspended), s.task? c with
  | some (tl, g), some t =>
    match g.range with
    | none => .next s
    | some r =>
      if s.cycle < r.ready || !(t.q.loads.isEmpty && t.q.stores.isEmpty) then .next s
      else
        let x := unpack r.word
        let opc := (opcode r.word).toNat
        let s0 : State := { s with stage := g }
        match s0.rangeGroup opc x r t ext with
        | .error (.fault code va) => .next ((s0.rangeFault r code va).shelve tl)
        | .error .wait => .next s
        | .error (.held va ps) => .next (s.noteHeld va ps)
        | .ok (s1, p, bm) =>
          let p' : RangeState := { p with group := r.part.group + 1 }
          let r' : RangeRun := { r with part := p', ready := s.cycle + 1 }
          let s2 := ({ s1 with stage := { s1.stage with range := some r' } } : State).payNow
            (2 ^ (s0.costOf .V opc rangeCost).shift) bm
          if rangeGroups opc x r.count ≤ p'.group then .next ((s2.rangeFinish opc x r.word p' s.cycle).shelve tl)
          else .next (s2.shelve tl)
  | _, _ => .next s

end Sys2Proof.Machine
end

