-- ==== Sys2Proof/Machine/Tables.lean ====
section
/-! DEFINITION. The row-control store and the Furrow table (R255, R260 to R263, R265), expert routing and hot experts (R281,
R282, R302 to R304), and exit notices (R266). -/

namespace Sys2Proof.Machine

/-! ## Accesses that hold the issue stage (R261, R282) -/

/-- The parts of an access checked one page after the other; windows and sync pages are refused. -/
def State.holdParts (s : State) (t : Task) (k : Acc) :
    List (Nat × Nat) → Except (Nat × Nat) (List (Piece × Nat) × List Resolved)
  | [] => .ok ([], [])
  | (va, n) :: rest =>
    match s.rangeAccess t k (BitVec.ofNat 64 va) n 0 with
    | .error e => .error e
    | .ok r =>
      let t1 : Task := match r.ovf with
        | none => t
        | some o => { t with csr := { t.csr with ovfptr := o } }
      match s.holdParts t1 k rest with
      | .error e => .error e
      | .ok (qs, rs) => .ok (r.tgt.pieces.map (fun p => (p, va)) ++ qs, r :: rs)

/-- A range checked at issue: its pieces with the address of each one's part, and what the checks leave (R261, R282). -/
def State.holdCheck (s : State) (k : Acc) (va : Word) (len : Nat) : Except Stop (List (Piece × Nat) × List Resolved) :=
  match s.holdParts s.cur k (pageParts va.toNat len) with
  | .error (c, f) => .error (.fault c (some (BitVec.ofNat 64 f)))
  | .ok r => .ok r

/-- The walks of a checked range cached, and its lines looked up. -/
def State.holdTouch (s : State) (r : List (Piece × Nat) × List Resolved) : State :=
  (r.2.foldl (fun s x => s.resolved s.stage.uid x) s).touch (r.1.map (·.1))

/-- The one fault record of an access that no path serves in some part of it (R354). -/
def State.holdLost (s : State) (ps : List (Piece × Nat)) : Option State :=
  ps.findSome? (fun e => (s.lostPiece [] [e.1]).map (fun x =>
    (s.faultRecord s.stage.uid (BitVec.ofNat 64 e.2) x.1 (s.recordGroup x.1) x.2).ungone x.1))

/-- The bytes of one piece as the task's own loads read them; those of another package are free (DESIGN CHOICE, log entry 21). -/
def State.holdByte (s : State) (q : Queues) (p : Piece) : List Byte :=
  overlay q p.pa
    (if p.pa < 2 ^ 52 && s.isRemote p.pa then (List.range p.len).map (fun i => Config.freeByte (s.fresh * 2 ^ 52 + p.pa + i))
     else s.readPiece [] p)

/-- Bytes of pieces as the task's own loads read them: zeros, with a fault record, where no path serves a part of them (R354). -/
def State.holdRead (s : State) (q : Queues) (ps : List (Piece × Nat)) : List Byte × State :=
  match s.holdLost ps with
  | some s1 => (List.replicate ((ps.map (·.1.len)).foldl (· + ·) 0) 0, s1)
  | none => (ps.flatMap (fun e => s.holdByte q e.1), s.mint)

/-- Bytes written into pieces, one after the other. -/
def State.holdPut (s : State) : List (Piece × Nat) → List Byte → State
  | [], _ => s
  | (p, va) :: ps, bs =>
    (s.writePieces (.form s.stage.uid false) (BitVec.ofNat 64 va) [p] (bs.take p.len)).holdPut ps (bs.drop p.len)

/-- Bytes written at home, which those behind the fabric reach by requests that the form awaits (R261, R282); none where no path
serves a part of them (R354). -/
def State.holdWrite (s : State) (ps : List (Piece × Nat)) (bs : List Byte) : State :=
  match s.holdLost ps with
  | some s1 => s1
  | none =>
    let s1 := s.holdPut ps bs
    { s1 with stage := { s1.stage with sent := some (s.fresh, s1.fresh) } }

/-- The lines of a checked range. -/
def holdLines (r : List (Piece × Nat)) : List Nat := r.flatMap (fun p => pieceLines p.1)

/-- Whether a form must still wait: accesses pushed before it have not performed at task scope, a launch holds back a line
that it touches (R320), a piece is held at an admission point (R346), or the store buffer holds a line that it writes and
cannot write home at once. -/
def State.holdWaits (s : State) (reads writes : List (Piece × Nat)) : Bool :=
  let t := s.cur
  let ps := (reads ++ writes).map (·.1)
  !(t.q.loads.isEmpty && t.q.stores.isEmpty) || s.piecesHeld s.stage.uid t.q.seq ps || ps.any s.heldPiece ||
    (holdLines writes).any (s.lineAway t.q)

/-- How a form that must wait keeps the issue stage. -/
def State.holdStop (s : State) (ps : List (Piece × Nat)) : Stop :=
  match ps.find? (fun e => s.heldPiece e.1) with
  | some e => .held (BitVec.ofNat 64 e.2) [e.1]
  | none => .suspend

/-- The store buffer's places of the lines that a form writes, written at home first (R191). -/
def State.holdFlush (s : State) (writes : List (Piece × Nat)) : State :=
  (holdLines writes).foldl (fun s l => s.flushLine s.stage.uid l) s

/-- A form keeps the issue stage for `n` cycles in all. -/
def State.keepStage (s : State) (n : Nat) : State := { s with stage := { s.stage with extra := s.stage.extra + (n - 1) } }

/-! ## Row control (R260 to R262) -/

/-- First row and count of a range word (R260). -/
def rangeWord (w : Word) : Nat × Nat := (getBits w 0 10, getBits w 10 11)

/-- Whether a range word breaks the limits of R260. -/
def rangeBad (w : Word) : Bool := 1024 < (rangeWord w).1 + (rangeWord w).2

/-- A word of a plot's row-control store. -/
def Plot.row (p : Plot) (r : Nat) : BitVec 32 := Tab.getD p.rcw r 0

/-- A word of the store written. -/
def Plot.setRow (p : Plot) (r : Nat) (w : BitVec 32) : Plot := { p with rcw := Tab.set p.rcw r w }

/-- STATE of a row-control word (R41). -/
def rcState (w : BitVec 32) : Nat := bitsOf w.toNat 0 2
/-- BLOCK of a row-control word. -/
def rcBlock (w : BitVec 32) : Nat := bitsOf w.toNat 2 6
/-- RECUR of a row-control word. -/
def rcRecur (w : BitVec 32) : Nat := bitsOf w.toNat 8 4
/-- SCORE of a row-control word. -/
def rcScore (w : BitVec 32) : Nat := bitsOf w.toNat 16 16

/-- A row-control word from its fields, reserved bits zero (R41). -/
def rcWord (score recur block state : Nat) : BitVec 32 :=
  BitVec.ofNat 32 (score * 2 ^ 16 + recur * 2 ^ 8 + block * 2 ^ 2 + state)

/-- The update of one row after block `b` with threshold entry `thr` and score `sc` (R262). -/
def rcUpdate (thr : Word) (b : Nat) (sc : Num) (w : BitVec 32) : BitVec 32 :=
  let next := min (b + 1) 63
  let rloop := getBits thr 4 4
  if rcState w = 2 then w
  else if rcState w = 1 then rcWord (rcScore w) (rcRecur w) next 0
  else
    let score := bf16.cvt false sc
    if (bf16.value (getBits thr 48 16)).le sc then rcWord score 0 b 2
    else if rcState w = 3 && 0 < rcRecur w then rcWord score (rcRecur w - 1) b 3
    else if rcState w = 0 && 0 < rloop then rcWord score (rloop - 1) b 3
    else rcWord score 0 next (if (bf16.value (getBits thr 32 16)).le sc then 1 else 0)

/-- Rows of the store changed from `r` on, each by an element. -/
def Plot.mapRows (p : Plot) (f : Nat → BitVec 32 → BitVec 32) : Nat → List Nat → Plot
  | _, [] => p
  | r, e :: es => Plot.mapRows (p.setRow r (f e (p.row r))) f (r + 1) es

/-- The operations of `rcupd` (R261). -/
inductive RcOp where
  | f32 | bf16 | ld | st
deriving DecidableEq, Repr

/-- The bytes of an element in memory. -/
def RcOp.size : RcOp → Nat
  | .bf16 => 2
  | _ => 4

/-- What an operation does to a row with its element (R261, R262). -/
def RcOp.row (op : RcOp) (thr : Word) (b e : Nat) (w : BitVec 32) : BitVec 32 :=
  match op with
  | .f32 => rcUpdate thr b (fp32.value e) w
  | .bf16 => rcUpdate thr b (elemValue 1 e) w
  | .ld => BitVec.ofNat 32 (e / 2 ^ 16 * 2 ^ 16 + e % 2 ^ 12)
  | .st => w

/-- Whether an operation needs a valid plane (R262). -/
def RcOp.update (op : RcOp) : Bool := op == .f32 || op == .bf16

/-- The effect of `rcupd` once nothing holds it back. -/
def State.rcAct (s : State) (op : RcOp) (row0 count block : Nat) (r : List (Piece × Nat) × List Resolved) : State :=
  let s1 := s.holdTouch r
  let n := s1.cur.plot
  if op = .st then
    (s1.holdFlush r.1).holdWrite r.1
      ((List.range count).flatMap (fun i => toLe 4 ((s1.plot n).row (row0 + i)).toNat))
  else
    let b := s1.holdRead s1.cur.q r.1
    let thr := (s1.plot n).active.word (0x43000 + 8 * block)
    b.2.setPlot n ((b.2.plot n).mapRows (op.row thr block) row0 (elemsOf op.size b.1))

/-- A form of `rcupd` (R261, R262). -/
def rcupdForm (op : RcOp) (x : Syl) (s : State) : Host.Outcome State Fault Refusal :=
  runWait .C 0x048 x waitTrans
    (fun g _ => (Cost.plain, ceilDiv ((rangeWord g.c.w).2 * op.size) 64)) (fun g s =>
    let row0 := (rangeWord g.c.w).1
    let count := (rangeWord g.c.w).2
    if rangeBad g.c.w then .error (.fault 24 none)
    else if op.update && !s.curPlane.valid then .error (.fault 24 none)
    else if g.b.w.toNat % op.size ≠ 0 then .error (.fault 6 (some g.b.w))
    else if count = 0 then .ok (s.keepStage 4)
    else
      match s.holdCheck (if op = .st then .write else .read) g.b.w (count * op.size) with
      | .error e => .error e
      | .ok r =>
        if s.holdWaits r.1 (if op = .st then r.1 else []) then .error (s.holdStop r.1)
        else .ok ((s.rcAct op row0 count (getBits g.c.w 32 6) r).keepStage (4 + ceilDiv count 32))) s

/-- `rcupd.f32` (R261, R262). -/
def execRcupdF32 (x : Syl) (s : State) : Host.Outcome State Fault Refusal := rcupdForm .f32 x s
/-- `rcupd.bf16` (R261, R262). -/
def execRcupdBf16 (x : Syl) (s : State) : Host.Outcome State Fault Refusal := rcupdForm .bf16 x s
/-- `rcupd.ld` (R261). -/
def execRcupdLd (x : Syl) (s : State) : Host.Outcome State Fault Refusal := rcupdForm .ld x s
/-- `rcupd.st` (R261). -/
def execRcupdSt (x : Syl) (s : State) : Host.Outcome State Fault Refusal := rcupdForm .st x s

/-! ## Compaction (R263) -/

/-- Whether a row is selected (R263). -/
def rowSelected (d : Nat) (blk : Nat) (w : BitVec 32) : Bool :=
  (if d % 4 = 0 then rcState w == 0 || rcState w == 3
   else if d % 4 = 1 then rcState w == 0
   else if d % 4 = 2 then rcState w == 3
   else rcState w == 2) && (d / 4 % 2 == 0 || rcBlock w == blk)

/-- The rows that a `harrow` selects, in rising order. -/
def Plot.selected (p : Plot) (d blk row0 count : Nat) : List Nat :=
  ((List.range count).map (row0 + ·)).filter (fun r => rowSelected d blk (p.row r))

/-- `harrow` (R263). -/
def execHarrow (x : Syl) (s : State) : Host.Outcome State Fault Refusal :=
  run .C 0x049 x plain (fun g s =>
    if rangeBad g.b.w then .error (.fault 24 none)
    else
      let p := s.plot s.cur.plot
      let count := (rangeWord g.b.w).2
      let rows := p.selected x.d.toNat (getBits g.c.w 0 6) (rangeWord g.b.w).1 count
      match s.putS x.a 1 (BitVec.ofNat 64 rows.length) with
      | .error e => .error e
      | .ok s1 =>
        let f := rows.zipIdx.foldl (fun f e => Tab.set f e.2 e.1) p.furrow
        let s2 := s1.setPlot s.cur.plot { s1.plot s.cur.plot with furrow := f }
        let s3 := s2.onCur (fun t => { t with csr := { t.csr with live := BitVec.ofNat 64 rows.length } })
        .ok (s3.keepStage (4 + ceilDiv count 128))) s

/-! ## Expert routing (R281, R282, R302 to R304) -/

/-- The registers of the routing directory, as a bundle finds them at its issue. -/
def State.directories (s : State) : Tab Word := s.mgmt.regs.filter (fun e => 0x420000 ≤ e.1 && e.1 < 0x420400)

/-- The two words of a routing-directory entry as they stood at the bundle's issue (R282). -/
def State.directory (s : State) (i : Nat) : Word × Word :=
  (Tab.getD s.stage.dirs (0x420000 + 16 * i) 0, Tab.getD s.stage.dirs (0x420008 + 16 * i) 0)

/-- The threshold for replicate events of a die (R303). -/
def State.hotLimit (s : State) (d : Nat) : Nat := getBits (s.reg (0x180008 + 0x1000 * d)) 0 16

/-- One routed row counted (R302, R306): its pair's counter, a free one, or die counter 4; the event that it may raise (R304). -/
def State.countHot (s : State) (d i x version : Nat) : State :=
  let y := s.die d
  let old := y.hot.find? (fun h => h.entry == i && h.expert == x)
  if old.isNone && 1024 ≤ y.hot.length then s.bumpDie d 4
  else
    let h := old.getD ⟨i, x, 0, false⟩
    let n := min 65535 (h.count + 1)
    let fires := s.hotLimit d != 0 && !h.posted && s.hotLimit d ≤ n
    let h' : HotPair := { h with count := n, posted := h.posted || fires }
    let hot := if old.isNone then y.hot ++ [h'] else y.hot.map (fun e => if e = h then h' else e)
    let s1 := s.setDie d { y with hot := hot }
    if fires then (s1.bumpDie d 3).report (.replicate d i x n version) else s1

/-- The two words of a routing-table entry (R281). -/
def State.routeEntry (s : State) (tbase x : Nat) : Word × Word := (s.word (tbase + 16 * x), s.word (tbase + 16 * x + 8))

/-- A replica of a routing-table entry (R281). -/
def routePart (e : Word × Word) (i : Nat) : Nat := if i < 3 then getBits e.1 (16 * (i + 1)) 16 else getBits e.2 (16 * (i - 3)) 16

/-- The destination of row `r` with expert id `x`, whether it has none though it names an expert, and its row counted (R282). -/
def State.routeRow (s : State) (die i rbase r x : Nat) : Nat × Bool × State :=
  let w := s.directory i
  let e := s.routeEntry (getBits w.1 0 52) x
  let nrep := getBits e.1 0 4
  if x = 0xFFFF then (0xFFFF, false, s)
  else if getBits w.2 0 13 ≤ x || nrep = 0 || 7 < nrep then (0xFFFF, true, s)
  else (routePart e ((rbase + r) % nrep), false, s.countHot die i x (getBits w.2 32 32))

/-- The two bytes at an offset of pieces. -/
def rowPiece : List (Piece × Nat) → Nat → Option Piece
  | [], _ => none
  | (p, _) :: ps, off => if off < p.len then some { p with pa := p.pa + off, len := 2 } else rowPiece ps (off - p.len)

/-- The id of row `r`, read at its turn (R282); what lies behind the fabric, or is lost there, is in `bs`. -/
def State.rowId (s : State) (rd : List (Piece × Nat)) (lost : Bool) (bs : List Byte) (r : Nat) : Nat :=
  match (rowPiece rd (2 * r)).filter (fun p => !lost && !s.far p) with
  | some p => leNat (overlay s.cur.q p.pa (s.readPiece [] p))
  | none => leNat ((bs.drop (2 * r)).take 2)

/-- The output of row `r` written at home at its turn; what lies behind the fabric follows with the last row. -/
def State.rowOut (s : State) (wr : List (Piece × Nat)) (r out : Nat) : State :=
  match (rowPiece wr (2 * r)).filter (fun p => !s.farWrite p) with
  | some p => s.store p.pa (toLe 2 out)
  | none => s

/-- Rows routed one after the other from row `r` on: the outputs, and the rows that have no destination (R282). -/
def State.routeRows (s : State) (die i rbase : Nat) (rd wr : List (Piece × Nat)) (lost : Bool) (bs : List Byte) :
    Nat → Nat → List Nat × Nat × State
  | 0, _ => ([], 0, s)
  | n + 1, r =>
    let o := s.routeRow die i rbase r (s.rowId rd lost bs r)
    let a := (o.2.2.rowOut wr r o.1).routeRows die i rbase rd wr lost bs n (r + 1)
    (o.1 :: a.1, o.2.1.toNat + a.2.1, a.2.2)

/-- The effect of `route` on `n` rows once nothing holds it back: the machine, and the rows without a destination. An output range
that no path serves in some part takes nothing (R354). -/
def State.routeAct (s : State) (n i rbase : Nat) (rd wr : List (Piece × Nat) × List Resolved) : State × Nat :=
  let s1 := ((s.holdTouch rd).holdTouch wr).holdFlush wr.1
  let lost := (s1.holdLost rd.1).isSome
  let b := s1.holdRead s1.cur.q rd.1
  let o := b.2.routeRows s.cur.die i rbase rd.1 (if (b.2.holdLost wr.1).isSome then [] else wr.1) lost b.1 n 0
  (o.2.2.holdWrite wr.1 (o.1.flatMap (toLe 2)), o.2.1)

/-- `route` (R282). -/
def execRoute (x : Syl) (s : State) : Host.Outcome State Fault Refusal :=
  runWait .C 0x04C x waitTrans (fun g _ => (Cost.plain, ceilDiv (4 * getBits g.c.w 0 17) 64)) (fun g s =>
    let n := getBits g.c.w 0 17
    let i := x.d.toNat % 64
    if 65536 < n then .error (.fault 24 none)
    else if g.b.w.toNat % 2 ≠ 0 then .error (.fault 6 (some g.b.w))
    else if g.e.w.toNat % 2 ≠ 0 then .error (.fault 6 (some g.e.w))
    else
      match s.holdCheck .read g.b.w (2 * n), s.holdCheck .write g.e.w (2 * n) with
      | .error e, _ => .error e
      | _, .error e => .error e
      | .ok rd, .ok wr =>
        if !(s.directory i).1.getLsbD 63 then .error (.fault 24 none)
        else if n ≠ 0 && s.holdWaits rd.1 wr.1 then .error (s.holdStop (rd.1 ++ wr.1))
        else
          let version := getBits (s.directory i).2 32 32
          let a := s.routeAct n i (getBits g.c.w 32 16) rd wr
          match a.1.putS x.a 1 (BitVec.ofNat 64 (version * 2 ^ 32 + a.2)) with
          | .error e => .error e
          | .ok s1 => .ok (s1.keepStage (4 + ceilDiv n 32))) s

/-- A window of a die's hot-expert bank ends and the next starts (R302). -/
def execHotExpertWindowStart (die : Nat) (s : State) : Host.Outcome State Fault Refusal :=
  let y := s.die die
  if 4 ≤ die || s.cycle - y.windowStart < getBits (s.reg (0x180000 + 0x1000 * die)) 0 33 then .next s
  else .next (s.setDie die { y with hot := [], windowStart := s.cycle })

/-! ## Exit notices (R266, R353) -/

/-- The package of a target word. -/
def noticePkg (w : Word) : Nat := getBits w 0 10

/-- `xnote` (R266). -/
def execXnote (x : Syl) (s : State) : Host.Outcome State Fault Refusal :=
  runWait .C 0x04B x (waitEngine 3 (fun d => d.notices.length) 32) plain (fun g s =>
    if getBits g.c.w 33 31 ≠ 0 || getBits g.c.w 17 10 % 64 ≠ 0 then .error (.fault 24 none)
    else
      let t := s.cur
      let d := s.die t.die
      .ok (s.setDie t.die { d with notices := d.notices ++ [⟨s.stage.uid, t.no, t.tenant, g.b.w, g.c.w⟩] })) s

/-- The rows that a mask names, each with the block. -/
def maskRows (mask : Word) (base block : Nat) : List (Nat × Nat) :=
  ((List.range 64).filter mask.getLsbD).map (fun i => (base + i, block))

/-- The first row that a notice has still to act on exits at its block, in one action of its own (R266, R285). -/
def Plot.exitNext (p : Plot) : Plot :=
  match p.exits with
  | [] => p
  | (r, block) :: rest =>
    let w := p.row r
    { (if rcState w = 2 then p else p.setRow r (rcWord (rcScore w) 0 block 2)) with exits := rest }

/-- A notice at its target plot: its rows exit one after the other, the first at once; or it is counted as rejected (R266). -/
def State.takeNotice (s : State) (tenant : Nat) (mask target : Word) : State :=
  let n := getBits target 10 7
  let p := s.plot n
  if p.active.valid && getBits (p.active.word 0) 32 6 == tenant then
    s.setPlot n ({ p with exits := p.exits ++ maskRows mask (getBits target 17 10) (getBits target 27 6) } : Plot).exitNext
  else s.bumpPlot n 3

/-- An exit notice arrives: one of this package takes effect, the first of a die's queue for another package goes to the
fabric; one from another package brings its mask, its target word and, in bits [38:33] beside it, its tenant (R266,
R353, DESIGN CHOICE, log entry 22). Before a die takes its next one, the last one on a plot of it acts on the rows that it has left
(R285). -/
def execExitNoticeArrive (src : NoticeSource) (s : State) : Host.Outcome State Fault Refusal :=
  match src with
  | .far _ bs => .next (s.takeNotice (getBits (wordAt bs 8) 33 6) (wordAt bs 0) (wordAt bs 8))
  | .own die =>
    let d := s.die die
    match s.plots.find? (fun e => e.1 / 32 == die && !e.2.exits.isEmpty), d.notices with
    | some (n, p), _ => .next (s.setPlot n p.exitNext)
    | none, [] => .next s
    | none, n :: rest =>
      let s1 := s.setDie die { d with notices := rest }
      .next (if s.fab.pkg = some (noticePkg n.target) then s1.takeNotice n.tenant n.mask n.target
        else s1.raiseNotice (noticePkg n.target) (.exit n))

/-- The fabric cannot deliver the first notice of a die's queue, for the cause given (R266, R371). -/
def execNoticeDeliveryFailure (die : Nat) (cause : Nat) (s : State) : Host.Outcome State Fault Refusal :=
  let d := s.die die
  match d.notices with
  | [] => .next s
  | n :: rest =>
    if s.fab.pkg = some (noticePkg n.target) then .next s
    else .next ((s.setDie die { d with notices := rest }).exitLost n cause)

end Sys2Proof.Machine
end

