-- ==== Sys2Proof/Machine/Budget.lean ====
section
/-! DEFINITION. The budget instructions and the counters (R294 to R301, R306). -/

namespace Sys2Proof.Machine

/-- The value that `bget` reads. -/
def State.budgetOf (s : State) (d : BitVec 7) : Word :=
  let y := s.slot s.cur.job.slot
  if d = 0 then s.cur.csr.bi
  else if d = 1 then s.cur.csr.bm
  else if d = 2 then BitVec.ofNat 64 (y.get 7 0 48)
  else BitVec.ofNat 64 (y.get 8 0 48)

/-- `bget` (R297): after the charges of its own bundle, that of a stream element which it sends among them. -/
def execBget (x : Syl) (s : State) : Host.Outcome State Fault Refusal :=
  run .C 0x038 x plain (fun _ s =>
    match s.putS x.a 2 0 with
    | .error e => .error e
    | .ok s1 => s.putS x.a 2 (s1.budgetOf x.d)) s

/-- Units taken from the own budget of a task, with exhaustion where that leaves 0 (R289, R294, R298); `bm` names the
memory budget. -/
def Task.give (t : Task) (bm : Bool) (g : Nat) : Task :=
  { t with csr := if bm then t.csr.charge 0 g else t.csr.charge g 0 }

/-- `bgive` (R298). -/
def execBgive (x : Syl) (s : State) : Host.Outcome State Fault Refusal :=
  run .C 0x039 x plain (fun g s =>
    let bm := x.d.getLsbD 0
    let t := s.cur
    let u := getBits (if bm then t.csr.bm else t.csr.bi) 0 48
    let n := min g.e.w.toNat (u - g.b.w.toNat)
    let s1 := s.onCur (fun t => t.give bm n)
    let bi' := if bm then 0 else n
    let bm' := if bm then n else 0
    .ok (if x.d.getLsbD 1 then s1.returnUnits t.job.slot bi' bm' else s1.addPool t.job.slot bi' bm')) s

/-- The units of a topup added to the own budget (R299): no exhaustion bit is cleared. -/
def Task.topUp (t : Task) (bm : Bool) (n : Nat) : Task :=
  { t with csr := if bm then { t.csr with bm := addUnits t.csr.bm n } else { t.csr with bi := addUnits t.csr.bi n } }

/-- The slot that holds a grid. -/
def State.slotNamed (s : State) (grid : Nat) : Option (Nat × Slot) :=
  s.slots.find? (fun e => e.2.v && e.2.grid == grid)

/-- The Yielded tasks of a grid that wait with an exhausted budget, in the order of their placement. -/
def State.dryTasks (s : State) (n : Nat) (bm : Bool) : List (Nat × Task) :=
  let dry (t : Task) : Bool :=
    let tsw := s.word (t.job.savedAt + 0x40)
    (if bm then tswMexh tsw else tswBexh tsw) && getBits (s.word (t.job.savedAt + (if bm then 0x58 else 0x50))) 0 48 == 0
  s.tasks.filter (fun e => e.2.phase == .yielded && e.2.job.slot == n && e.2.job.grid == (s.slot n).grid && dry e.2)

/-- A pool that the management core tops up raises the budgets of the grid's Yielded tasks that it keeps waiting: each draws
once more what a placement draws (R292, DESIGN CHOICE, log entry 52). -/
def State.drawDry (s : State) (n : Nat) (bm : Bool) : State :=
  (s.dryTasks n bm).foldl (fun s e =>
    let x := s.slot n
    let g := if bm then min (x.get 6 32 32) (x.get 8 0 48) else min (x.get 6 0 32) (x.get 7 0 48)
    let y := if bm then x.put 8 0 48 (x.get 8 0 48 - g) else x.put 7 0 48 (x.get 7 0 48 - g)
    (s.setSlot n y).addBudget e.1 (if bm then 0 else g) (if bm then g else 0)) s

/-- `topup` (R299): the permission checks in order, then the addition. -/
def execTopup (x : Syl) (s : State) : Host.Outcome State Fault Refusal :=
  run .C 0x03A x plain (fun g s =>
    let bm := x.d.getLsbD 0
    let t := s.cur
    let n := g.e.w.toNat
    let limit := getBits t.csr.cap 0 48
    if !x.d.getLsbD 1 then
      if t.pl ≠ 0 then .ok (s.onCur (fun t => t.topUp bm n))
      else if !t.csr.cap.getLsbD 63 || getBits t.csr.cap 48 8 ≠ 1 || limit < n then .error (.fault 5 none)
      else .ok (s.onCur (fun t =>
        ({ t with csr := { t.csr with cap := putBits t.csr.cap 0 48 (limit - n) } } : Task).topUp bm n))
    else if t.pl = 0 then .error (.fault 5 none)
    else
      match s.slotNamed (getBits g.b.w 0 32) with
      | none => .error (.fault 26 none)
      | some (k, y) =>
        if t.pl = 1 && y.tenant ≠ t.tenant then .error (.fault 5 none)
        else if y.st ≠ 3 && y.st ≠ 4 then .error (.fault 26 none)
        else
          let s1 := s.addPool k (if bm then 0 else n) (if bm then n else 0)
          .ok (if t.pl = 2 then s1.drawDry k bm else s1)) s

/-- The hot-expert count of a pair as it stands at the bundle's issue (R300, R301). -/
def Stage.hotCount (g : Stage) (w : Word) : Word :=
  let h := g.hot.find? (fun h => h.entry == getBits w 0 6 && h.expert == getBits w 6 12)
  BitVec.ofNat 64 (h.elim 0 HotPair.count)

/-- `rdcnt` (R300, R301). -/
def execRdcnt (x : Syl) (s : State) : Host.Outcome State Fault Refusal :=
  run .C 0x050 x plain (fun g s =>
    let n := g.e.w.toNat
    if 2 ≤ x.d.toNat && s.cur.pl = 0 then .error (.fault 5 none)
    else
      let w : Word :=
        if x.d = 0 then BitVec.ofNat 64 s.stage.cycle
        else if x.d = 1 then s.stage.taskCounters.getD n 0
        else if x.d = 2 then s.stage.plotCounters.getD n 0
        else if x.d = 3 then s.stage.dieCounters.getD n 0
        else s.stage.hotCount g.e.w
      s.putS x.a 2 w) s

end Sys2Proof.Machine
end

