-- ==== Sys2Proof/Machine/Launch.lean ====
section
/-! DEFINITION. The launch instructions (R319 to R323, R325), sigc's write (R323) and the accepted state of a launch (R311
to R314, R320). -/

namespace Sys2Proof.Machine

/-! ## launch (R320) -/

/-- The lowest free slot of the slot table. -/
def State.freeSlotNo (s : State) : Option Nat := (List.range 1024).find? (fun n => !(s.slot n).v)

/-- The wait of `launch`: outstanding invalidations, then the slot table (R208, R320). -/
def waitLaunch (g : Args) (s : State) : Option Stop :=
  (waitTrans g s).orElse (fun _ => if s.freeSlotNo.isNone then some (.block .slotTable) else none)

/-- The id of a new grid: not 0, and no other grid's; else free (DESIGN CHOICE, log entry 5). -/
def State.newGrid (s : State) : Nat :=
  (((List.range 1026).map (fun k => ((Config.freeWord s.fresh).toNat + k) % 2 ^ 32)).find?
    (fun g => g != 0 && (s.slotNamed g).isNone)).getD 1

/-- The slot that a launch takes: accepted, with its pools, its launcher and what R309 marks D (R309, R314); `seq` is the access
count at the launch bundle. -/
def Task.launchSlot (t : Task) (uid seq grid : Nat) (rec_ : Word) (bi bm : Nat) : Slot :=
  let x : Slot := { Slot.zero with
    launcher := some uid
    launcherSeq := seq
    holdSeq := t.q.seq
    launcherPl := t.pl
    launcherPrio := t.job.prio
    launcherCeil := t.job.ceil
    parent := some (t.job.slot, t.job.grid)
    holding := true }
  (((((((((x.put 0 63 1 1).put 0 60 3 1).put 0 48 6 t.tenant).put 1 0 32 grid).put 7 0 48 bi).put 8 0 48 bm).put 11 0 56
    rec_.toNat).put 13 12 1 1)).put 13 0 12 t.no

/-- `launch` (R320). -/
def execLaunch (x : Syl) (s : State) : Host.Outcome State Fault Refusal :=
  runWait .C 0x030 x waitLaunch (fun _ _ => memCost 2) (fun g s =>
    if g.b.w.toNat % 64 ≠ 0 then .error (.fault 6 (some g.b.w))
    else
      match s.checkAccess s.cur.who .read g.b.w.toNat 128, s.freeSlotNo with
      | .error (c, va), _ => .error (.fault c (some (BitVec.ofNat 64 va)))
      | .ok _, none => .error (.block .slotTable)
      | .ok c, some n =>
        let s1 := s.cacheWalks s.cur.who c
        let t := s1.cur
        let bi := min g.c.w.toNat (getBits t.csr.bi 0 48)
        let bm := min g.e.w.toNat (getBits t.csr.bm 0 48)
        let y := t.launchSlot s.stage.uid s.stage.seq s1.newGrid g.b.w bi bm
        let s2 := s1.setSlot n { y with named := s1.launchLine t t.who g.b.w.toNat s.stage.seq }
        .ok ((s2.onCur (fun t => (t.give false bi).give true bm)).mint)) s

/-! ## waitc (R322) -/

/-- Whether a counter's wait is met; the counter of another package is a free value (DESIGN CHOICE, log entry 21). -/
def State.counterMet (s : State) (pa : Nat) (target : Word) : Bool :=
  if s.isRemote pa then (Config.freeWord (2 ^ 60 + s.cycle)).getLsbD 0
  else s.full pa || (target != 0 && target.toNat ≤ getBits (s.word pa) 0 63)

/-- What a wait on a counter word awaits: the grid that counts in it, or its line (R322, R336). -/
def State.counterAwaits (s : State) (pa : Nat) : Awaits :=
  match s.slots.find? (fun e => (e.2.st == 3 || e.2.st == 4) && e.2.ctr == pa) with
  | some (n, _) => .grid n
  | none => .line (pa / 64)

/-- The physical address of a resolved access. -/
def Target.addr : Target → Nat
  | .mem (p :: _) => p.pa
  | _ => 0

/-- The wait of `waitc`: a line that a launch of the task holds back, then the counter (R320, R322). -/
def waitWaitc (g : Args) (s : State) : Option Stop :=
  match waitTrans g s, s.checkedSync .read g.b.w 8 8 with
  | some st, _ => some st
  | none, .error _ => none
  | none, .ok r =>
    let pa := r.tgt.addr
    if s.holds s.stage.uid s.cur.q.seq (pa / 64) then some (.block (.line (pa / 64)))
    else if s.counterMet pa g.e.w then none
    else some (.block (s.counterAwaits pa))

/-- `waitc` (R322). -/
def execWaitc (x : Syl) (s : State) : Host.Outcome State Fault Refusal :=
  runWait .C 0x032 x waitWaitc plain (fun g s =>
    match s.checkedSync .read g.b.w 8 8 with
    | .error e => .error e
    | .ok r => .ok (s.resolved s.stage.uid r)) s

/-! ## sigc (R323) -/

/-- The requests of a task in the engines, by their identities: Drill, collectives, samples, gleans, and the Acre's queued
commands (R113, R323). -/
def State.outstanding (s : State) (uid : Nat) : List Nat :=
  match s.task? uid with
  | none => []
  | some t =>
    t.job.work ++ ((s.plot t.plot).leases.filter (fun e => e.2.holder.is uid)).flatMap (fun e => e.2.cmds.map (·.id)) ++
      (t.flow.producers.filter (fun p => p.kind == .amove)).map (·.id)

/-- The wait of `sigc`: a held line, and room for an unperformed one (R320, R323). -/
def waitSigc (g : Args) (s : State) : Option Stop :=
  match waitTrans g s, s.checkedSync .write g.b.w 8 8 with
  | some st, _ => some st
  | none, .error _ => none
  | none, .ok r =>
    let l := r.tgt.addr / 64
    if s.holds s.stage.uid s.cur.q.seq l then some (.block (.line l))
    else
      match s.cur.q.sigcs with
      | y :: rest => if 4 ≤ rest.length + 1 then some (.block (.line (y.pa / 64))) else none
      | [] => none

/-- `sigc` (R323). -/
def execSigc (x : Syl) (s : State) : Host.Outcome State Fault Refusal :=
  runWait .C 0x033 x waitSigc (fun _ _ => memCost 1) (fun g s =>
    match s.checkedSync .write g.b.w 8 8 with
    | .error e => .error e
    | .ok r =>
      let y : Sigc := ⟨g.b.w, r.tgt.addr, g.e.w, s.stage.seq, s.outstanding s.stage.uid, none⟩
      .ok ((s.onCur (fun t => { t with q := { t.q with sigcs := t.q.sigcs ++ [y] } })).resolved s.stage.uid r)) s

/-- The oldest sigc of a task leaves its list. -/
def Task.popSigc (t : Task) : Task := { t with q := { t.q with sigcs := t.q.sigcs.drop 1 } }

/-- The oldest `sigc` of a task writes its word and fills its line, once what precedes it is complete (R323); towards
another package it leaves as a request. -/
def execSigcWrite (c : Nat) (s : State) : Host.Outcome State Fault Refusal :=
  match s.task? c with
  | none => .next s
  | some t =>
    match t.q.sigcs with
    | [] => .next s
    | y :: rest =>
      let left := s.outstanding c
      if y.sent.isSome || !t.homeBelow y.seq || y.work.any (fun i => left.contains i) ||
          s.holds c y.seq (y.pa / 64) then .next s
      else if s.far ⟨y.pa, 8, true, noAlloc⟩ then
        match s.pathTo y.pa with
        | .error cause => .next ((s.onTask c Task.popSigc).faultRecord c y.va y.pa (s.recordGroup y.pa) cause)
        | .ok (g, held) =>
          let y' : Sigc := { y with sent := some s.fresh }
          let s1 := s.onTask c (fun t => { t with q := { t.q with sigcs := y' :: rest } })
          .next (s1.request (.sigc c) y.va y.pa (.signal y.val) noAlloc g held)
      else
        .next ((((s.store y.pa (toLe 8 y.val.toNat)).setFull y.pa).touchLine (y.pa / 64) noAlloc).onTask c Task.popSigc)

/-! ## swap (R325) -/

/-- A flip of a plot requested: its resident tasks are asked to yield (R325). -/
def State.requestFlip (s : State) (n : Nat) : State :=
  let p := s.plot n
  if p.flip then s
  else
    let s1 := s.setPlot n { p with flip := true }
    (s1.onPlot n).foldl (fun s e => s.onTask e.1 Task.preempt) s1

/-- `swap` (R325). -/
def execSwap (x : Syl) (s : State) : Host.Outcome State Fault Refusal :=
  run .C 0x034 x plain (fun _ s => if s.cur.pl < 1 then .error (.fault 5 none) else .ok (s.requestFlip x.d.toNat)) s

/-! ## The accepted state (R314) -/

/-- Whether a launch record keeps R311, for a launcher at privilege level `pl`. -/
def recordOk (bs : List Byte) (pl : Nat) : Bool :=
  let shape := wordAt bs 0x40
  let sp := wordAt bs 0x60
  (getBits shape 32 7 + 1) * (getBits shape 24 7 + 1) * (getBits shape 16 7 + 1) ≤ 128 && getBits shape 12 3 ≤ 4 &&
    getBits shape 6 2 == 0 && getBits shape 15 1 == 0 && getBits shape 23 1 == 0 && getBits shape 31 1 == 0 &&
    getBits shape 39 25 == 0 && getBits (wordAt bs 0x48) 40 24 == 0 && getBits (wordAt bs 0x50) 56 8 == 0 &&
    getBits sp 14 2 == 0 && getBits sp 30 34 == 0 && getBits sp 0 14 + 8 * getBits sp 16 14 ≤ 12288 &&
    getBits (wordAt bs 0x68) 56 8 == 0 && getBits (wordAt bs 0x68) 0 6 == 0 && (pl != 0 || wordAt bs 0x70 == 0) &&
    wordAt bs 0x78 == 0

/-- The maker of the dispatcher's accesses for a slot: the launcher's tenant and privilege (R314). -/
def Slot.who (x : Slot) : Who := { plot := x.get 13 0 12 / 32, tenant := x.tenant, pl := x.launcherPl }

/-- A launch record read by the dispatcher (R311): its bytes, or the code and the failing address; `heldCode` where the read is
held at an admission point (R346). -/
def State.recordRead (s : State) (w : Who) (ext : List Host.Cell) (va : Nat) : Except (Nat × Nat) (List Byte × State) :=
  match s.checkAccess w .read va 128 with
  | .error e => .error e
  | .ok c =>
    match s.engFail ext true 0 c.pieces with
    | some (code, off) => .error (code, va + off)
    | none => .ok (s.readPieces ext c.pieces, (s.cacheWalks w c).touch c.pieces)

/-- The word of a completion counter, translated once, with the policy of its page; none where it is unusable (R314). -/
def State.counterAt (s : State) (w : Who) (va : Nat) : Option (Piece × State) :=
  if va % 8 ≠ 0 then none
  else
    match s.checkAccess w .read va 8, s.checkAccess w .write va 8 with
    | .ok c, .ok _ => c.pieces.head?.bind (fun p => if p.fe then some (p, s.cacheWalks w c) else none)
    | _, _ => none

/-- Words 0 and 1 of a class template, and its two words of plots (R313). -/
def State.template (s : State) (n i : Nat) : Word := s.reg (0x120000 + 64 * n + 8 * i)

/-- A slot with its template and its launch record applied (R314). -/
def State.applyTemplate (s : State) (x : Slot) (bs : List Byte) : Slot :=
  let shape := wordAt bs 0x40
  let n := getBits shape 8 4
  let w := s.template n 0
  let prio := getBits w 32 5
  let ceil := max prio (getBits w 24 5)
  let user := x.launcherPl == 0
  let a := (((((x.put 0 58 1 (getBits w 62 1)).put 0 56 2 (min (getBits w 56 2) x.launcherPl)).put 0 40 6 (getBits shape 0 6)).put
    0 32 5 (if user then min prio x.launcherPrio else prio)).put 0 24 5 (if user then min ceil x.launcherCeil else ceil)).put
    0 20 3 (getBits shape 12 3)
  let b := (((a.put 1 48 7 (getBits shape 32 7)).put 1 40 7 (getBits shape 24 7)).put 1 32 7 (getBits shape 16 7)).put 2 0 40 0
  let c := ((b.put 3 0 40 (getBits (wordAt bs 0x48) 0 40)).put 4 0 64 (s.template n 2).toNat).put 5 0 64 (s.template n 3).toNat
  ((c.put 6 0 64 (wordAt bs 0x58).toNat).put 9 0 32 (max 256 (getBits (s.template n 1) 0 32))).put 10 0 56
    (getBits (wordAt bs 0x50) 0 56)

/-- Whether a plot is in the mask of a record. -/
def Slot.allows (x : Slot) (p : Nat) : Bool := x.get (4 + p / 64) (p % 64) 1 == 1

/-- TILES of a record. -/
def Slot.tiles (x : Slot) : Nat := x.get 0 20 3

/-- The room of a plot with `free` contexts and `held` tiles (R13). -/
def Slot.room (x : Slot) (free held : Nat) : Nat := if x.tiles = 0 then free else min free ((16 - held) / x.tiles)

/-- The plots of a quad that a record allows. -/
def Slot.quad (x : Slot) (q : Nat) : List Nat := ((List.range 4).map (4 * q + ·)).filter x.allows

/-- Whether a group of the record could be placed somewhere with all contexts free (R13). -/
def Slot.fits (x : Slot) : Bool :=
  if x.size ≤ 32 then (List.range 128).any (fun p => x.allows p && x.size ≤ x.room 32 0)
  else (List.range 32).any (fun q => x.size ≤ x.room 32 0 * (x.quad q).length)

/-- A launch that fails without a counter to write: the launcher takes a late-access fault, the pools return, the slot is
free (R314). Causes of launch reports: 0 held, 1 record unreadable, 2 counter unusable, 3 field or class, 4 unplaceable, 5
at a placement (DESIGN CHOICE, log entry 23). -/
def State.launchLost (s : State) (n cause va : Nat) : State :=
  let x := s.slot n
  let s1 := match x.launcher with
    | some u => s.onTask u (fun t => if t.takesReturn then t.late (BitVec.ofNat 64 va) else t)
    | none => s
  ((s1.report (.launch n cause)).returnPool n).freeSlot n

/-- A grid completed in error before any group of it is placed: ERR is set with COUNT 0, and the line turns full (R314). -/
def State.launchError (s : State) (n cause : Nat) : State :=
  ((s.setCounter n (BitVec.ofNat 64 (2 ^ 63))).report (.launch n cause)).gridComplete n

/-- A slot enters the bound state: its counter is zeroed and its line is empty (R15, R314). -/
def State.bind (s : State) (n : Nat) : State :=
  let x := s.slot n
  let y : Slot := { (x.put 0 60 3 3).put 2 0 40 0 with holding := false }
  (s.resetCounter n).setSlot n y

/-- Whether every access of the launcher before its launch has performed at domain scope. -/
def State.launcherReady (s : State) (x : Slot) : Bool :=
  match x.launcher.bind s.task? with
  | none => true
  | some t => t.homeBelow x.launcherSeq

/-- The record of an accepted launch is read and checked, and the slot moves on (R314). -/
def execLaunchRecordRead (slot : Nat) (ext : List Host.Cell) (s : State) : Host.Outcome State Fault Refusal :=
  let x := s.slot slot
  if x.st ≠ 1 || !s.launcherReady x then .next s
  else
    match s.recordRead x.who ext (x.get 11 0 56) with
    | .error (code, va) => .next (if code = heldCode then s.holdAt x.who va else s.launchLost slot 1 va)
    | .ok (bs, s1) =>
      let ctr := getBits (wordAt bs 0x50) 0 56
      match s1.counterAt x.who ctr with
      | none => .next (s1.launchLost slot 2 ctr)
      | some (p, s2) =>
        let y : Slot := { x with ctr := p.pa, ctrPol := p.pol }
        let s3 := s2.setSlot slot y
        let enabled := (s.template (getBits (wordAt bs 0x40) 8 4) 0).getLsbD 63
        if !recordOk bs x.launcherPl || !enabled then .next (s3.launchError slot 3)
        else if getBits (wordAt bs 0x48) 0 40 = 0 then .next ((s3.setCounter slot 0).gridComplete slot)
        else
          let z := s.applyTemplate y bs
          let s4 := s3.setSlot slot z
          if z.get 0 58 1 = 1 then .next ((s4.setSlot slot (z.put 0 60 3 2)).report (.launch slot 0))
          else if !z.fits then .next (s4.launchError slot 4)
          else .next (s4.bind slot)

end Sys2Proof.Machine
end

