-- ==== Sys2Proof/Machine/Hash.lean ====
section
/-! DEFINITION. SHA-512 (FIPS 180-4), the hash of every measurement and signature of the part (R363, R364). -/

namespace Sys2Proof.Machine

/-- The first 80 primes. -/
def primes80 : List Nat :=
  [2, 3, 5, 7, 11, 13, 17, 19, 23, 29, 31, 37, 41, 43, 47, 53, 59, 61, 67, 71, 73, 79, 83, 89, 97, 101, 103, 107, 109, 113] ++
  [127, 131, 137, 139, 149, 151, 157, 163, 167, 173, 179, 181, 191, 193, 197, 199, 211, 223, 227, 229, 233, 239, 241, 251] ++
  [257, 263, 269, 271, 277, 281, 283, 293, 307, 311, 313, 317, 331, 337, 347, 349, 353, 359, 367, 373, 379, 383, 389, 397,
   401, 409]

/-- The integer cube root of `n`, bit by bit from bit `k - 1` down, starting at `r`. -/
def icbrtGo (n : Nat) : Nat → Nat → Nat
  | 0, r => r
  | k + 1, r => let s := r + 2 ^ k; icbrtGo n k (if s * s * s ≤ n then s else r)

/-- The round constants: 64 fractional bits of the cube roots of the primes. -/
def shaK : List Word := primes80.map (fun p => BitVec.ofNat 64 (icbrtGo (p * 2 ^ 192) 68 0))

/-- The initial hash value: 64 fractional bits of the square roots of the first 8 primes. -/
def shaInit : List Word := (primes80.take 8).map (fun p => BitVec.ofNat 64 (isqrt (p * 2 ^ 128)))

/-- The message padded to blocks of 128 bytes. -/
def shaPad (m : List Byte) : List Byte :=
  let z := (239 - m.length % 128) % 128
  m ++ [0x80] ++ List.replicate z 0 ++ (toLe 16 (8 * m.length)).reverse

/-- The sixteen words of a block. -/
def shaWords (b : List Byte) : List Word :=
  (List.range 16).map (fun i => BitVec.ofNat 64 (leNat ((b.drop (8 * i)).take 8).reverse))

/-- Rotation right. -/
def rotr (x : Word) (n : Nat) : Word := x.rotateRight n

/-- The message schedule: the last sixteen words give the next; `acc` is reversed. -/
def shaSchedule : Nat → List Word → List Word
  | 0, acc => acc.reverse
  | n + 1, acc =>
    let w (i : Nat) : Word := acc.getD (i - 1) 0
    let s0 := rotr (w 15) 1 ^^^ rotr (w 15) 8 ^^^ (w 15 >>> 7)
    let s1 := rotr (w 2) 19 ^^^ rotr (w 2) 61 ^^^ (w 2 >>> 6)
    shaSchedule n ((w 16 + s0 + w 7 + s1) :: acc)

/-- The eight working words of the compression. -/
structure ShaState where
  a : Word
  b : Word
  c : Word
  d : Word
  e : Word
  f : Word
  g : Word
  h : Word
deriving DecidableEq, Repr

/-- One round with its constant and schedule word. -/
def ShaState.round (x : ShaState) (kw : Word × Word) : ShaState :=
  let t1 := x.h + (rotr x.e 14 ^^^ rotr x.e 18 ^^^ rotr x.e 41) + ((x.e &&& x.f) ^^^ (~~~x.e &&& x.g)) + kw.1 + kw.2
  let t2 := (rotr x.a 28 ^^^ rotr x.a 34 ^^^ rotr x.a 39) + ((x.a &&& x.b) ^^^ (x.a &&& x.c) ^^^ (x.b &&& x.c))
  ⟨t1 + t2, x.a, x.b, x.c, x.d + t1, x.e, x.f, x.g⟩

/-- The hash value after one more block. -/
def shaBlock (ks : List Word) (h : List Word) (b : List Byte) : List Word :=
  let g (i : Nat) : Word := h.getD i 0
  let ws := shaSchedule 64 (shaWords b).reverse
  let x := (ks.zip ws).foldl ShaState.round ⟨g 0, g 1, g 2, g 3, g 4, g 5, g 6, g 7⟩
  (h.zip [x.a, x.b, x.c, x.d, x.e, x.f, x.g, x.h]).map (fun p => p.1 + p.2)

/-- The blocks of a padded message taken in turn. -/
def shaBlocks (ks : List Word) : Nat → List Word → List Byte → List Word
  | 0, h, _ => h
  | n + 1, h, m => shaBlocks ks n (shaBlock ks h (m.take 128)) (m.drop 128)

/-- SHA-512: 64 bytes. -/
def sha512 (m : List Byte) : List Byte :=
  let p := shaPad m
  (shaBlocks shaK (p.length / 128) shaInit p).flatMap (fun w => (toLe 8 w.toNat).reverse)

end Sys2Proof.Machine
end

