-- ==== Sys2Proof/Machine/Writers.lean ====
section
/-! DEFINITION. Who may write the management registers (R360 to R362), and the measurement log (R364). -/

namespace Sys2Proof.Machine

/-! ## Ownership (R360, R362) -/

/-- The code of a master (R360). -/
def Master.code : Master → Nat
  | .board => 1
  | .host => 2
  | .fabric => 3

/-- OWNER. -/
def State.owner (s : State) : Nat := getBits s.mgmt.own 4 2

/-- PEND. -/
def State.pend (s : State) : Nat := getBits s.mgmt.own 6 2

/-- HOSTDATA. -/
def State.hostData (s : State) : Bool := s.mgmt.own.getLsbD 8

/-- Whether the management core runs: it starts at step 4 of the reset sequence (R367), and in recovery not at all. -/
def State.running (s : State) : Bool := 4 ≤ s.mgmt.step && !s.mgmt.recovery

/-- Whether a write of the management registers is served: the management core's, and the owner's (R362). In recovery
nothing but what R365 lists is. -/
def State.mayWrite (s : State) (w : Writer) : Bool :=
  s.running && (match w with
    | .core => true
    | .master m => s.owner == Master.code m)

/-- Whether a write of a register that recovery serves as well is served (R365, R366). -/
def State.mayWriteBasic (s : State) (w : Writer) : Bool :=
  s.mayWrite w || (s.mgmt.recovery && (match w with
    | .core => false
    | .master m => m == .board && s.owner == 1))

/-- Whether a write of a register that only the management core writes is served (R179, R246, R342). -/
def State.coreWrites (s : State) (w : Writer) : Bool := s.running && w == .core

/-- A refused write counted (R362). -/
def State.refuse (s : State) (w : Writer) : State :=
  match w with
  | .core => s
  | .master _ => { s with mgmt := { s.mgmt with own := putBits s.mgmt.own 32 16 (min 65535 (getBits s.mgmt.own 32 16 + 1)) } }

/-- A write made where it is served, else refused. -/
def State.served (s : State) (w : Writer) (ok : Bool) (act : State → State) : State := if ok then act s else s.refuse w

/-! ## The measurement log (R364) -/

/-- An item measured: the chain extends, and an entry is made while there is room. -/
def State.measure (s : State) (kind ver subj : Nat) (item : List Byte) : State :=
  let d := sha512 item
  let m := s.mgmt
  { s with mgmt := { m with
    chain := sha512 (m.chain ++ d)
    log := if m.log.length < 1024 then m.log ++ [⟨kind, ver, subj, d⟩] else m.log
    logCount := min (2 ^ 32 - 1) (m.logCount + 1) } }

end Sys2Proof.Machine
end

