-- ==== Sys2Proof/Machine/Fabric.lean ====
section
/-! DEFINITION. The package edge: requests and their answers (R351 to R354), SerDes groups, links and Capo (R339 to R350). -/

namespace Sys2Proof.Machine

/-! ## Accesses of another package, and of second-tier memory, at home (R354) -/

/-- The lines of bytes at an address set full. -/
def State.fillSpan (s : State) (pa n : Nat) : State :=
  (pieceLines ⟨pa, n, true, noAlloc⟩).foldl (fun s l => s.setFull (l * 64)) s

/-- The lines of bytes at an address set empty. -/
def State.vacateSpan (s : State) (pa n : Nat) : State :=
  (pieceLines ⟨pa, n, true, noAlloc⟩).foldl (fun s l => s.setEmpty (l * 64)) s

/-- Whether every line of bytes at an address is full. -/
def State.fullSpan (s : State) (pa n : Nat) : Bool := (pieceLines ⟨pa, n, true, noAlloc⟩).all (fun l => s.full (l * 64))

/-- What a request does at its home and answers; none while it waits on a line (R179, R185, R354). The lines are looked up
there, and allocated where the policy says so: a request of the fabric or the host allocates none, one of this package to its
second-tier memory as its page says (R179, R180). -/
def State.serve (s : State) (pa : Nat) (op : FarOp) (pol : Policy) : Option (FarReply × State) :=
  let lookAt (n : Nat) (s : State) : State := s.touch [⟨pa, n, false, pol⟩]
  let look (s : State) : State := s.touchLine (pa / 64) pol
  match op with
  | .read n => some (.data (s.bytes pa n), lookAt n s)
  | .write bs => some (.done, lookAt bs.length (s.store pa bs))
  | .cells bs => some (.done, look (bs.foldl (fun s b => s.store (pa / 64 * 64 + b.1) [b.2]) s))
  | .atomic opc size x y =>
    let old := s.bytes pa size
    let o := opc % 0x100
    if o = 0x30 then (if s.full pa then some (.data old, look (s.setEmpty pa)) else none)
    else if o = 0x31 then some (.done, look ((s.store pa (toLe size y.toNat)).setFull pa))
    else if opc / 0x100 % 2 = 1 && !s.full pa then none
    else
      let new := amoNew o size (opc / 0x200 % 2 == 1) (leNat old) x.toNat y.toNat
      some (.data old, look (s.store pa (toLe size new)))
  | .syncRead n => if s.fullSpan pa n then some (.data (s.bytes pa n), lookAt n s) else none
  | .syncWrite size x => if s.full pa then none else some (.done, look ((s.store pa (toLe size x.toNat)).setFull pa))
  | .setFull => some (.done, look (s.setFull pa))
  | .setEmpty => some (.done, look (s.setEmpty pa))
  | .fill bs => some (.done, lookAt bs.length ((s.store pa bs).fillSpan pa bs.length))
  | .signal x => some (.done, look ((s.store pa (toLe 8 x.toNat)).setFull pa))
  | .vacate bs => some (.done, lookAt bs.length ((s.store pa bs).vacateSpan pa bs.length))

/-! ## Requests of this package (R354) -/

/-- The package that a request goes to. -/
def State.reqPkg (s : State) (r : Req) : Option Nat :=
  match rangeOf (s.localAddr r.addr) with
  | .remote p _ => some p
  | _ => none

/-- A request gone. -/
def State.dropReq (s : State) (tag : Nat) : State :=
  { s with fab := { s.fab with reqs := s.fab.reqs.filter (fun r => r.tag != tag) } }

/-- A request changed. -/
def State.onReq (s : State) (tag : Nat) (f : Req → Req) : State :=
  { s with fab := { s.fab with reqs := s.fab.reqs.map (fun r => if r.tag = tag then f r else r) } }

/-- A place that has been answered leaves the store buffer. -/
def Task.dropPlace (t : Task) (tag : Nat) : Task :=
  { t with q := { t.q with buffer := t.q.buffer.filter (fun p => p.sent != some tag) } }

/-- The place that a request carries. -/
def Task.placeOf (t : Task) (tag : Nat) : Option Place := t.q.buffer.find? (fun p => p.sent == some tag)

/-- The bytes of a place kept for a read of its line under way, whose answer may be older (R214). -/
def Place.into (p : Place) (g : Get) : Get :=
  if g.data.isNone && g.pa / 64 == p.line then
    { g with own := p.bytes.foldl (fun t b => Tab.set t (p.line * 64 + b.1) b.2) g.own }
  else g

/-- A place answered: an Aborted task leaves with its last one (R224). Second-tier memory is read as its answer arrives, so that
nothing is kept of it there. -/
def State.placeDone (s : State) (uid tag : Nat) : State :=
  let done (t : Task) : Task :=
    match t.placeOf tag with
    | none => t
    | some p =>
      let u := t.dropPlace tag
      if s.isRemote (p.line * 64) then { u with q := { u.q with gets := u.q.gets.map p.into } } else u
  (s.onTask uid done).leaveDrained uid

/-- Whether a queued access still waits for the answer to a request. -/
def Task.awaitsGet (t : Task) (tag : Nat) : Bool := t.q.gets.any (fun g => g.tag == tag && g.data.isNone)

/-- A request ends with a fault record (R190, R354): of a place of the store buffer, one for each access in it; what no queued
access awaits as `lostReq` says. -/
def State.failReq (s : State) (r : Req) (cause : Nat) : State :=
  let s1 := s.dropReq r.tag
  let note (s : State) (uid : Nat) : State := s.faultRecord uid r.va r.addr r.group cause
  match r.purpose with
  | .load uid seq => if (s.task? uid).any (fun t => t.awaitsGet r.tag) then note (s1.loseAccess uid seq) uid else s1
  | .store uid =>
    match (s.task? uid).bind (fun t => t.placeOf r.tag) with
    | some p => ((s1.onTask uid (fun t => t.dropPlace r.tag)).losePlace uid p r.group cause).leaveDrained uid
    | none => s1
  | .marker uid id => note (s1.failMarker uid id) uid
  | .sigc uid => note (s1.onTask uid Task.popSigc) uid
  | why => s1.lostReq why r.tag r.va r.addr r.group cause

/-- A request admitted to a group, on which its flit leaves. An engine's access that was held there is the engine's to make: the
request that stood for it goes (R346). -/
def State.letThrough (s : State) (r : Req) (g : Nat) : State :=
  if r.purpose = .hold then s.dropReq r.tag
  else (s.onReq r.tag (fun r => { r with group := g, held := false, early := false, stopped := false })).sendFlit g

/-- A request takes its path again: sent, held at an admission point, or ended where no path is left (R346, R351, R352). A
second-tier request held at a group that withdrew its window ends with cause 2 (R348); of another package, one that was sent
before ends with cause 1, as its link is down (R345, R358). What was held as its group entered QUIESCE goes on that group while it
still carries traffic (R346). -/
def State.reroute (s : State) (r : Req) : State :=
  if r.early then (if (s.group r.group).carries && !s.fullRetry r.group then s.letThrough r r.group else s)
  else
    match s.pathTo r.addr with
    | .error c => s.failReq r (if (s.reqPkg r).isNone then 2 else if r.held then c else 1)
    | .ok (g, held) =>
      if held then s.onReq r.tag (fun r => { r with group := g, held := true, stopped := false }) else s.letThrough r g

/-- The queued replies leave in their order, each on its group while that carries it and has room in its retry buffer (R346,
R350). -/
def State.flowReplies (s : State) : List (Nat × Nat × Nat × FarReply) → List (Nat × Nat × Nat × FarReply) → State
  | [], kept => { s with fab := { s.fab with inbound := { s.fab.inbound with queued := kept } } }
  | e :: es, kept =>
    if kept.any (fun k => k.1 == e.1) || !(s.group e.1).carries || s.fullRetry e.1 then s.flowReplies es (kept ++ [e])
    else
      let b := s.fab.inbound
      (({ s with fab := { s.fab with inbound := { b with sent := b.sent ++ [e.2] } } } : State).sendFlit e.1).flowReplies es kept

/-- What waits for a link goes on: the notices first, for which no data stands in the way (R353), then replies, then the requests
held at an admission point, in their order. -/
def State.settle (s : State) : State :=
  let s1 := s.sendQueued
  let s2 := s1.flowReplies s1.fab.inbound.queued []
  (s2.fab.reqs.filter (·.held)).foldl (fun s r => s.reroute r) s2

/-! ## Path sets (R351, R352) -/

/-- Whether a request to a package has been sent and not answered. -/
def State.sentTo (s : State) (pkg : Nat) : Bool := s.fab.reqs.any (fun r => !r.held && s.reqPkg r == some pkg)

/-- Path sets that have changed since `old` take effect once what was sent on them has ended (R351). -/
def State.changed (old s : State) : State :=
  (s.fab.routes.map (·.1)).foldl (fun s q =>
    if old.pathSet q == s.pathSet q || (Tab.get? s.fab.paths q).isSome || !s.sentTo q then s
    else { s with fab := { s.fab with paths := Tab.set s.fab.paths q (old.pathSet q) } }) s

/-- The path set of a package takes effect (R351). -/
def execPathSetSwitch (pkg : Nat) (s : State) : Host.Outcome State Fault Refusal :=
  if (Tab.get? s.fab.paths pkg).isNone || s.sentTo pkg then .next s
  else .next ({ s with fab := { s.fab with paths := Tab.erase s.fab.paths pkg } }).settle

/-- A path notice arrives: a group leaves or joins this package's path set for the sender, and the timers of requests that
waited there on an empty line resume as the path drops (R352, R358). -/
def execPathNoticeReceive (pkg g : Nat) (add : Bool) (s : State) : Host.Outcome State Fault Refusal :=
  let out := s.fab.peerOut.filter (fun e => e != (pkg, g))
  let wake (r : Req) : Req := if !add && r.group = g && s.reqPkg r = some pkg then { r with stopped := false } else r
  let s1 := { s with fab := { s.fab with
    peerOut := if add then out else out ++ [(pkg, g)]
    reqs := s.fab.reqs.map wake } }
  .next ((State.changed s s1).settle)

/-- The packages in whose path sets a UALink group stands by their routes (R351). -/
def State.standsIn (s : State) (g : Nat) : List Nat :=
  if (s.group g).ualink then
    (s.fab.routes.filter (fun e => e.2.contains g && !s.fab.peerOut.contains (e.1, g))).map (·.1)
  else []

/-- Path notices raised for packages (R352), on the group itself where it carries them. -/
def State.sendNotices (s : State) (ps : List Nat) (g : Nat) (add : Bool) (on : Option Nat := none) : State :=
  ps.foldl (fun s p => s.raiseNotice p (.path g add) on) s

/-! ## Answers (R354) -/

/-- Data as a read takes it: under the stores of its own that have left the buffer meanwhile, and under the buffer as it stands
(R214). -/
def Get.take (g : Get) (q : Queues) (bs : List Byte) : Get :=
  { g with data := some (overlay q g.pa (bs.zipIdx.map (fun e => (Tab.get? g.own (g.pa + e.2)).getD e.1))) }

/-- Data that answers a read of a queued access: the access takes it at once where that was all it waited for (R199). -/
def State.loadAnswer (s : State) (uid seq tag : Nat) (bs : List Byte) : State :=
  let f (q : Queues) (g : Get) : Get := if g.tag = tag && g.data.isNone then g.take q bs else g
  let s1 := s.onTask uid (fun t => { t with q := { t.q with gets := t.q.gets.map (f t.q) } })
  match s1.task? uid with
  | none => s1
  | some t =>
    match t.q.loads.find? (fun a => a.seq == seq && (t.live || a.fills)) with
    | some a => (match a.tgt with
      | .mem ps => s1.loadFrom uid a (ps.map (fun p => (a.va, p)))
      | .window .. => s1)
    | none => s1

/-- The value that data of a marker's operation delivers. -/
def MarkOp.value (op : MarkOp) (bs : List Byte) : Word :=
  match op with
  | .amo opc size sgn _ _ _ => amoValue size (sgn && (opc == 0x23 || opc == 0x24)) (leNat bs)
  | _ => BitVec.ofNat 64 (leNat bs)

/-- An answer taken by the request that it is for. -/
def State.answer (s : State) (r : Req) (rep : FarReply) : State :=
  let s1 := s.dropReq r.tag
  match rep, r.purpose with
  | .stillEmpty, _ => s.onReq r.tag (fun r => { r with stopped := true })
  | .fault c, _ => if c = 1 || c = 5 || c = 7 then s.failReq r c else s
  | .retry, _ => s.reroute r
  | .data bs, .load uid seq => s1.loadAnswer uid seq r.tag bs
  | .data bs, .marker uid id => s1.onTask uid (fun t => t.finishMarker id ((t.markerOp id).map (fun op => op.value bs)))
  | .data _, .pref _ => s1
  | .data _, .posted => s1
  | .data _, _ => s
  | .done, .store uid => s1.placeDone uid r.tag
  | .done, .marker uid id => s1.onTask uid (fun t => t.finishMarker id none)
  | .done, .sigc uid => s1.onTask uid Task.popSigc
  | .done, .load .. => s
  | .done, _ => s1

/-- A sent request, whose group carries its answer: none does while it trains (R346, R393). -/
def State.sentReq (s : State) (tag : Nat) : Option Req :=
  s.fab.reqs.find? (fun r => r.tag == tag && !r.held && (s.group r.group).carries)

/-- The answer to a request arrives (R354). Second-tier memory is this package's own, so what a request to it reads and
writes is found here. -/
def execRemoteReplyArrive (tag : Nat) (r : FarReply) (s : State) : Host.Outcome State Fault Refusal :=
  match s.sentReq tag with
  | none => .next s
  | some q =>
    if (s.reqPkg q).isSome then .next (s.answer q r)
    else
      match r with
      | .fault _ => .next (s.answer q r)
      | _ =>
        match s.serve q.addr q.op q.pol with
        | none => .next s
        | some (rep, s1) => .next (s1.answer q rep)

/-- A retry response: the request is sent again on the path set as it is now (R352). -/
def execRetryResponse (tag : Nat) (s : State) : Host.Outcome State Fault Refusal :=
  match s.sentReq tag with
  | none => .next s
  | some q => if (s.reqPkg q).isSome then .next (s.reroute q) else .next s

/-- The response timer of a request has run out (R354). -/
def execRequestTimeout (tag : Nat) (s : State) : Host.Outcome State Fault Refusal :=
  match s.fab.reqs.find? (fun r => r.tag == tag) with
  | none => .next s
  | some q => if q.left = 0 && !q.stopped then .next (s.failReq q 6) else .next s

/-! ## Requests of other packages (R354) -/

/-- Whether this package serves another one: its bit in the peer mask. -/
def State.peerOk (s : State) (pkg : Nat) : Bool := pkg < 1024 && (s.reg (0x160200 + 8 * (pkg / 64))).getLsbD (pkg % 64)

/-- Whether an inbound address is refused: in a hole, at 0x180_0000_0000 or above, or in a slice page that is not pinned,
which is not addressable (R171, R354). -/
def State.farRefused (s : State) (a : Nat) : Bool := !s.addressable a

/-- An answer that leaves on a group once that carries it and has room (R346, R350). -/
def State.reply (s : State) (g : Nat) (r : FarRequest) (rep : FarReply) : State :=
  let b := s.fab.inbound
  ({ s with fab := { s.fab with inbound := { b with queued := b.queued ++ [(g, r.pkg, r.tag, rep)] } } } : State).settle

/-- An answer that the link itself gives (R346). -/
def State.replyNow (s : State) (r : FarRequest) (rep : FarReply) : State :=
  let b := s.fab.inbound
  { s with fab := { s.fab with inbound := { b with sent := b.sent ++ [(r.pkg, r.tag, rep)] } } }

/-- A request of another package has its last answer: it is kept for copies of it, and it waits no more. -/
def State.finish (s : State) (r : FarRequest) (rep : FarReply) : State :=
  let b := s.fab.inbound
  { s with fab := { s.fab with inbound := { b with
    waiting := b.waiting.filter (fun x => !(x.pkg == r.pkg && x.tag == r.tag))
    answered := b.answered ++ [((r.pkg, r.tag), rep)] } } }

/-- A request of another package refused with a cause, which its serving group's record takes with SRC 0 (R354, R371). -/
def State.refuseInbound (s : State) (g : Nat) (r : FarRequest) (cause : Nat) : State :=
  (s.finish r (.fault cause)).logError (0x500400 + 0x20 * g) cause 0 (BitVec.ofNat 64 r.addr)

/-- The even group that governs a group: the lower half of a bonded pair (R339, R345). -/
def State.evenOf (s : State) (g : Nat) : Nat :=
  let x := s.group (g - 1)
  if g % 2 = 1 && (x.preset == 3 || (x.op.isSome && x.target == 3)) then g - 1 else g

/-- A request that has reached this package served, refused or kept waiting; a copy of one that waits joins its wait, and one that
comes by another group is told so there. -/
def State.serveInbound (s : State) (r : FarRequest) : State :=
  let b := s.fab.inbound
  let g := s.evenOf r.group
  match b.answered.find? (fun e => e.1 == (r.pkg, r.tag)) with
  | some e => s.reply g r e.2
  | none =>
    if s.farRefused r.addr || !s.peerOk r.pkg then (s.refuseInbound g r 5).reply g r (.fault 5)
    else if r.uncorrectable then (s.refuseInbound g r 7).reply g r (.fault 7)
    else
      match s.serve r.addr r.op noAlloc with
      | some (rep, s1) => (s1.finish r rep).reply g r rep
      | none =>
        if b.waiting.contains r then s
        else
          let others := b.waiting.filter (fun x => !(x.pkg == r.pkg && x.tag == r.tag))
          ({ s with fab := { s.fab with inbound := { b with waiting := others ++ [r] } } } : State).reply g r .stillEmpty

/-! ## Groups and links (R339, R341, R349) -/

/-- The groups that move with an even one. -/
def State.members (s : State) (e : Nat) : List Nat :=
  let x := s.group e
  if x.preset == 3 || (x.op.isSome && x.target == 3) then [e, e + 1] else [e]

/-- The lanes of a link. -/
def Group.span (x : Group) : Nat := if x.preset = 3 then 16 else 8

/-- The working lanes (R341). -/
def Group.working (x : Group) : BitVec 16 := x.lanes &&& ~~~x.failed &&& BitVec.ofNat 16 (2 ^ x.span - 1)

/-- The lowest aligned block of `w` working lanes (R349). -/
def Group.blockOf (x : Group) (w : Nat) : Option Nat :=
  (List.range (x.span / w)).find? (fun j => (List.range w).all (fun i => x.working.getLsbD (j * w + i)))

/-- The width that RETRAIN tries now: the widest usable one that has not failed (R349). -/
def Group.tries (x : Group) : Option Nat := [16, 8, 4, 2].find? (fun w => !x.tried.contains w && (x.blockOf w).isSome)

/-- The code of a width (R341). -/
def widthCode (w : Nat) : Nat := if w = 2 then 1 else if w = 4 then 2 else if w = 8 then 3 else if w = 16 then 4 else 0

/-- The code of a state (R345). -/
def CapoState.code : CapoState → Nat
  | .off => 0
  | .up => 1
  | .quiesce => 2
  | .drain => 3
  | .withdraw => 4
  | .retrain => 5
  | .publish => 6
  | .down => 7

/-- The personality of a preset. -/
def personality (preset : Nat) : Nat := if preset ≤ 2 then preset else if preset = 3 then 2 else 3

/-- The lanes that the status word shows: one that is OFF holds no symbol lock (R341). -/
def Group.shown (x : Group) : BitVec 16 := if x.st = .off then 0 else x.working

/-- The status word of a group (R341). -/
def State.statusWord (s : State) (g : Nat) : Word :=
  let e := s.evenOf g
  let x := s.group e
  BitVec.ofNat 64 (x.epoch % 2 ^ 32 * 2 ^ 32 + x.shown.toNat * 2 ^ 16 + CapoState.code x.st * 2 ^ 12 +
    widthCode x.width * 2 ^ 8 + (if e ≠ g then 4 else personality x.preset) * 2 ^ 4 + x.preset % 16)

/-- The address of the status block; none where it is not placed (R341). -/
def State.statusBlock (s : State) : Option Nat :=
  let a := (s.reg 0x160300).toNat
  if a = 0 then none else some a

/-- The mirror of the window table, whose lines are always full (R341, R342). -/
def State.writeMirror (s : State) : State :=
  match s.statusBlock with
  | none => s
  | some a =>
    (List.range 128).foldl (fun s n =>
      let w := s.windowEntry n
      s.store (a + 0x800 + 16 * n) (toLe 8 (w.1.toNat - if w.1.getLsbD 62 then 2 ^ 62 else 0) ++ toLe 8 w.2.toNat))
      (s.fillSpan (a + 0x800) 0x800)

/-- Status lines turn empty. -/
def State.emptyStatus (s : State) (gs : List Nat) : State :=
  match s.statusBlock with
  | none => s
  | some a => gs.foldl (fun s g => s.setEmpty (a + 64 * g)) s

/-- Status lines written and set full in one action. -/
def State.writeStatus (s : State) (gs : List Nat) : State :=
  match s.statusBlock with
  | none => s
  | some a => gs.foldl (fun s g => (s.store (a + 64 * g) (toLe 64 (s.statusWord g).toNat)).setFull (a + 64 * g)) s.writeMirror

/-- The status block placed (R341): the mirror, and every group's line, empty while an operation runs. -/
def State.placeStatus (s : State) : State :=
  (List.range 32).foldl (fun s g => if (s.group (s.evenOf g)).op.isSome then s.emptyStatus [g] else s.writeStatus [g]) s

/-! ## Windows (R347, R348) -/

/-- A window entry written. -/
def State.setWindow (s : State) (n : Nat) (w : Word × Word) : State :=
  (s.setReg (0x150000 + 16 * n) w.1).setReg (0x150008 + 16 * n) w.2

/-- The serving group of a window entry. -/
def State.windowGroup (s : State) (n : Nat) : Nat := getBits (s.windowEntry n).1 56 5

/-- The published windows of groups. -/
def State.windowsOf (s : State) (gs : List Nat) : List Nat :=
  (List.range 128).filter (fun n => (s.windowEntry n).1.getLsbD 63 && gs.contains (s.windowGroup n))

/-- Windows withdrawn: V turns 0. -/
def State.withdrawWindows (s : State) (ns : List Nat) : State :=
  ns.foldl (fun s n => s.setWindow n (putBit (s.windowEntry n).1 63 false, (s.windowEntry n).2)) s

/-- The staged windows of groups published (R348). -/
def State.publishWindows (s : State) (gs : List Nat) : State :=
  (List.range 128).foldl (fun s n =>
    let w := s.windowEntry n
    if w.1.getLsbD 62 && gs.contains (s.windowGroup n) then s.setWindow n (putBit (putBit w.1 62 false) 63 true, w.2) else s) s

/-- The entries of windows, with their numbers. -/
def State.entriesOf (s : State) (ns : List Nat) : List (Nat × Word × Word) := ns.map (fun n => (n, s.windowEntry n))

/-- Cached leaves whose frames lie in withdrawn windows removed on every plot, and translation markers entered in every Drill queue
(R347). -/
def State.invalidateWindows (s : State) (es : List (Nat × Word × Word)) : State :=
  (List.range 128).foldl (fun s p =>
    s.dropEntries p (fun e => pteLeaf e.pte && es.any (fun w => entryCovers w.2 (pteFrame e.pte)))) s

/-! ## Operations (R343 to R348) -/

/-- An operation ends in UP, OFF or DOWN: EPOCH rises, also of an odd group that took part, GO reads 0, status lines are
written, the odd one's with the even one's, and held requests go on. -/
def State.endOp (s : State) (e : Nat) (gs : List Nat) (st : CapoState) : State :=
  let x := s.group e
  let odd := s.group (e + 1)
  let s0 := if x.both then s.setGroup (e + 1) { odd with epoch := (odd.epoch + 1) % 2 ^ 32 } else s
  let s1 := s0.setGroup e { x with
    st := st
    op := none
    epoch := (x.epoch + 1) % 2 ^ 32
    withdrawn := []
    width := if st = .up then x.width else 0
    both := false }
  (State.changed s (s1.writeStatus (if x.both then [e, e + 1] else gs))).settle

/-- The requests of groups. -/
def State.reqsOf (s : State) (gs : List Nat) : List Req := s.fab.reqs.filter (fun r => gs.contains r.group)

/-- The packages in whose path sets a group stands now (R351). -/
def State.pathsOf (s : State) (g : Nat) : List Nat := (s.fab.routes.map (·.1)).filter (fun p => (s.pathSet p).contains g)

/-- Notices sent on groups and not acknowledged. -/
def NoticeOut.on (n : NoticeOut) (gs : List Nat) : Bool := n.sent.any (fun e => gs.contains e.1)

/-- Notices that a group carried or was to carry are queued again, and its replies go: a copy of the request is answered where it
arrives (R345, R353, R354). -/
def State.unsend (s : State) (gs : List Nat) : State :=
  let free (n : NoticeOut) : NoticeOut :=
    { n with bound := n.bound.filter (fun g => !gs.contains g), sent := if n.on gs then none else n.sent }
  let b := s.fab.inbound
  { s with fab := { s.fab with
    notices := s.fab.notices.map free
    inbound := { b with queued := b.queued.filter (fun e => !gs.contains e.1) } } }

/-- A group enters DOWN (R345): out of every path set and without windows, before what it held goes on or ends. -/
def State.enterDown (s : State) (e : Nat) : State :=
  let gs := s.members e
  let ns := s.windowsOf gs
  let rs := s.reqsOf gs
  let s1 := (s.withdrawWindows ns).invalidateWindows (s.entriesOf ns)
  let x : Group := { s1.group e with st := .down, op := some true, retry := [], lane := [], wire := [] }
  let s2 := ((s1.setGroup e x).unsend gs).sendNotices (s.pathsOf e) e false
  let s3 := rs.foldl (fun s r => s.onReq r.tag (fun r => { r with held := true, early := false })) s2
  let s4 := State.changed s s3
  let s5 := rs.foldl (fun s r =>
    match s.reqPkg r with
    | none => s.failReq r 1
    | some q => if (s.pathSet q).isEmpty then s.failReq r 1 else s.reroute { r with held := true, early := false }) s4
  s5.endOp e gs .down

/-- RETRAIN begins: of a personality operation with a fresh link, whose preset is the target. -/
def State.beginTrain (s : State) (e : Nat) : State :=
  let x := s.group e
  let y : Group := { x with st := .retrain, tried := [] }
  if x.op = some true then
    let s1 := s.setGroup e { y with
      preset := x.target, txSeq := 0, retry := [], lane := [], rxSeq := 0, partial_ := 0, gap := false, wire := [], width := 0 }
    if x.target = 3 then s1.setGroup (e + 1) { Group.zero with epoch := (s.group (e + 1)).epoch } else s1
  else s.setGroup e y

/-- The error of a CAPOREQ write with GO, 0 where it is accepted (R344). -/
def State.capoErr (s : State) (g : Nat) (v : Word) : Nat :=
  let e := s.evenOf g
  let pre := getBits v 56 4
  let lanes := (List.range (if pre = 3 then 16 else 8)).filter (fun i => v.getLsbD (16 + i))
  if (s.group e).op.isSome || (pre = 3 && g % 2 = 0 && (s.group (g + 1)).op.isSome) then 1
  else if 4 < pre then 2
  else if pre = 3 && g % 2 = 1 then 3
  else if e ≠ g then 4
  else if lanes.length < 2 then 5
  else 0

/-- The fields of CAPOREQ that a write stores. -/
def capoFields (v : Word) : Word := v &&& 0x0F00FFFFFFFF0000

/-- What stands at the groups of a personality operation as they enter QUIESCE, requests held at the admission points and notices
queued, is theirs to finish (R346, R358). -/
def State.tie (s : State) (gs : List Nat) : State :=
  let mine (r : Req) : Req := if r.held && gs.contains r.group && r.purpose != .hold then { r with early := true } else r
  let tied (n : NoticeOut) : NoticeOut :=
    if n.sent.isNone && n.bound.isNone then { n with bound := (s.noticePath n).filter gs.contains } else n
  { s with fab := { s.fab with reqs := s.fab.reqs.map mine, notices := s.fab.notices.map tied } }

/-- An accepted operation starts (R343, R345). -/
def State.startOp (s : State) (g : Nat) (v : Word) : State :=
  let x := s.group g
  let pre := getBits v 56 4
  let y : Group := { x with
    op := some true
    target := pre
    lanes := (getBits v 16 16 : Nat)
    failed := 0
    tried := []
    withdrawn := []
    err := 0
    both := pre == 3 || x.preset == 3 }
  let pairUp := pre = 3 && (s.group (g + 1)).st == .up
  let drain (s : State) : State :=
    let s0 := s.tie ((if x.st == .up then s.members g else []) ++ if pairUp then [g + 1] else [])
    let s1 := s0.setGroup g { y with st := .quiesce }
    let s2 := if pairUp then s1.setGroup (g + 1) { s1.group (g + 1) with st := .quiesce, op := some true } else s1
    State.changed s (s2.emptyStatus ((s2.members g ++ s.members g).eraseDups))
  match x.st with
  | .up =>
    if pre = x.preset then ((s.setGroup g { y with op := some false }).emptyStatus (s.members g)).beginTrain g
    else drain s
  | .down => if pairUp then drain s else s.setGroup g { y with st := .withdraw }
  | _ =>
    if pre = 0 then s.setGroup g { x with err := 0 }
    else if pairUp then drain s
    else (s.setGroup g y).beginTrain g

/-- A write of CAPOREQ (R344): with GO an operation starts or is refused with ERR, and a new preset is measured, its code as
the item (R364); without, its fields are stored, and LMASK takes lanes out of service or gives them back to the next RETRAIN (R349). -/
def State.writeCapo (s : State) (g : Nat) (v : Word) : State :=
  let store (s : State) : State := s.setReg (0x160000 + 8 * g) (capoFields v)
  if v.getLsbD 63 then
    let err := s.capoErr g v
    let pre := getBits v 56 4
    let s1 := if pre = (s.group g).preset then s else s.measure 5 0 g [BitVec.ofNat 8 pre]
    if err = 0 then (store s1).startOp g v else s.setGroup g { s.group g with err := err }
  else
    let x := s.group g
    store (s.setGroup g { x with err := 0, lanes := if s.evenOf g = g then (getBits v 16 16 : Nat) else x.lanes })

/-- CAPOREQ as it reads (R344). -/
def State.readCapo (s : State) (g : Nat) : Word :=
  putBits (putBit (s.reg (0x160000 + 8 * g)) 63 (s.group (s.evenOf g)).op.isSome) 48 8 (s.group g).err

/-- CAPOREQ written (R343, R344). -/
def execCaporeqGo (w : Writer) (g : Nat) (v : Word) (s : State) : Host.Outcome State Fault Refusal :=
  .next (s.served w (s.mayWrite w && g < 32) (fun s => s.writeCapo g v))

/-- The path notices of a personality operation are sent, by the links that drain themselves, and the group drains (R345, R352); the
odd group of a pair that forms leaves its path sets with it. A link that was DOWN has left them before. -/
def execCapoDrainBegin (g : Nat) (s : State) : Host.Outcome State Fault Refusal :=
  if (s.group g).st != .quiesce || s.evenOf g ≠ g then .next s
  else
    let live := (s.members g).filter (fun m => (s.group m).st == .quiesce && (s.group m).width != 0)
    let s1 := live.foldl (fun s m => s.sendNotices (s.standsIn m) m false (some m)) s
    .next ((s1.setGroup g { s1.group g with st := .drain, drainFrom := s.cycle }).settle)

/-- Inbound requests of groups that wait. -/
def State.inboundOf (s : State) (gs : List Nat) : List FarRequest := s.fab.inbound.waiting.filter (fun r => gs.contains r.group)

/-- WITHDRAW begins: the group's windows go (R347). -/
def State.beginWithdraw (s : State) (g : Nat) : State :=
  let ns := s.windowsOf (s.members g)
  (s.withdrawWindows ns).setGroup g { s.group g with st := .withdraw, withdrawn := s.entriesOf ns }

/-- Whether something of another package or of this one is still on its way on groups, or stood at them as they entered QUIESCE
(R346). -/
def State.draining (s : State) (gs : List Nat) : Bool :=
  (s.reqsOf gs).any (fun r => !r.held || r.early) || !(s.inboundOf gs).isEmpty ||
    s.fab.inbound.queued.any (fun e => gs.contains e.1) ||
    s.fab.notices.any (fun n => n.on gs || n.bound.any gs.contains) ||
    gs.any (fun g => !(s.group g).retry.isEmpty || !(s.group g).lane.isEmpty)

/-- Everything in flight on a draining group is finished (R346). -/
def execCapoDrainComplete (g : Nat) (s : State) : Host.Outcome State Fault Refusal :=
  let gs := s.members g
  if (s.group g).st != .drain || s.draining gs then .next s else .next (s.beginWithdraw g)

/-- The drain limit in cycles (R344). -/
def State.drainLimit (s : State) (g : Nat) : Nat :=
  let n := getBits (s.reg (0x160000 + 8 * g)) 32 16
  1024 * if n = 0 then 1024 else n

/-- Notices that groups have yet to send, or whose acknowledgement is outstanding there, are lost (R266, R346). -/
def State.loseNotices (s : State) (gs : List Nat) (cause : Nat) : State :=
  let mine (n : NoticeOut) : Bool := n.on gs || n.bound.any gs.contains
  let lost := s.fab.notices.filter mine
  let s1 := { s with fab := { s.fab with notices := s.fab.notices.filter (fun n => !mine n) } }
  lost.foldl (fun s n => s.noticeLost n cause) s1

/-- The drain limit is reached: what is in flight is aborted, and inbound requests are refused (R346). -/
def execCapoDrainLimit (g : Nat) (s : State) : Host.Outcome State Fault Refusal :=
  let gs := s.members g
  let x := s.group g
  if x.st != .drain || s.cycle < x.drainFrom + s.drainLimit g then .next s
  else
    let s0 := (s.inboundOf gs).foldl (fun s r => (s.refuseInbound g r 1).replyNow r (.fault 1)) s
    let s1 := (s0.loseNotices gs 1).unsend gs
    .next ((((s.reqsOf gs).filter (fun r => !r.held || r.early)).foldl (fun s r => s.failReq r 1) s1).beginWithdraw g)

/-- The invalidation of WITHDRAW has completed on every plot (R346, R347). -/
def execCapoWithdrawComplete (g : Nat) (s : State) : Host.Outcome State Fault Refusal :=
  let x := s.group g
  if x.st != .withdraw || s.evenOf g ≠ g then .next s
  else
    let gs := s.members g
    let s1 := s.invalidateWindows x.withdrawn
    let lost := s1.fab.reqs.filter (fun r => r.held && (s1.reqPkg r).isNone && x.withdrew r.addr)
    let s2 := lost.foldl (fun s r => s.failReq r 2) s1
    if x.target = 0 then .next ((s2.setGroup g { s2.group g with preset := 0 }).endOp g gs .off) else .next (s2.beginTrain g)

/-- Numbers in rising order. -/
def sortNats (ns : List Nat) : List Nat := ns.foldr insertNat []

/-- The flits that have not been acknowledged go on the link again (R350). -/
def State.replay (s : State) (g : Nat) : State :=
  let x := s.group g
  s.setGroup g { x with wire := x.wire ++ sortNats (x.lane ++ x.retry) }

/-- Training succeeds at the width tried: PUBLISH, and the group is UP (R348, R349). -/
def execCapoTrainSuccess (g : Nat) (s : State) : Host.Outcome State Fault Refusal :=
  let x := s.group g
  if x.st != .retrain || s.evenOf g ≠ g || (x.ualink && s.fab.pkg.isNone) then .next s
  else
    match x.tries with
    | none => .next s
    | some w =>
      let gs := s.members g
      let s1 := s.setGroup g { x with width := w }
      let s2 := if x.preset = 1 then s1.publishWindows gs else s1
      let s3 := (s2.replay g).endOp g gs .up
      .next (if x.op = some true then s3.sendNotices (s3.pathsOf g) g true else s3)

/-- Training fails at the width tried: the next narrower one, or DOWN (R349, R356). -/
def execCapoTrainFail (g : Nat) (s : State) : Host.Outcome State Fault Refusal :=
  let x := s.group g
  if x.st != .retrain || s.evenOf g ≠ g then .next s
  else
    let y : Group := { x with tried := x.tried ++ x.tries.toList }
    let s1 := s.setGroup g y
    if y.tries.isNone || (x.ualink && s.fab.pkg.isNone) then .next (s1.enterDown g) else .next s1

/-- A lane fails: an UP link starts a width operation; training at a width fails with any lane of the link, and goes on to the
next one; in DRAIN the link replays (R341, R343, R349, R358). -/
def execLaneFailure (g lane : Nat) (s : State) : Host.Outcome State Fault Refusal :=
  let e := s.evenOf g
  let x := s.group e
  let n := if e ≠ g && lane < 8 then lane + 8 else lane
  if 32 ≤ g || x.span ≤ n then .next s
  else
    let y : Group := { x with failed := x.failed ||| BitVec.ofNat 16 (2 ^ n) }
    match x.st with
    | .up =>
      if x.working.getLsbD n then
        .next (((s.setGroup e { y with op := some false, both := x.preset == 3 }).emptyStatus (s.members e)).beginTrain e)
      else .next (s.setGroup e y)
    | .retrain =>
      .next (s.setGroup e (if x.working.getLsbD n then { y with tried := y.tried ++ x.tries.toList } else y))
    | .off | .down => .next s
    | .drain => .next ((s.setGroup e y).replay e)
    | _ => .next (s.setGroup e y)

/-! ## Flits (R350) -/

/-- A flit reaches the receiver: it is taken in sequence, and its packet is delivered whole; a bad flit and what follows it
are discarded up to the replay. -/
def execFlitReceive (g seq : Nat) (good last : Bool) (s : State) : Host.Outcome State Fault Refusal :=
  let x := s.group g
  if !x.carries || seq < x.rxSeq then .next s
  else if x.rxSeq < seq || !good then .next (s.setGroup g { x with gap := true })
  else
    .next (s.setGroup g { x with
        rxSeq := x.rxSeq + 1
        gap := false
        partial_ := if last then 0 else x.partial_ + 1
        delivered := if last then x.delivered + 1 else x.delivered })

/-- An acknowledgement: the flits up to it leave the retry buffer, the notices among them are delivered, and held requests and
queued notices go on (R350, R353). -/
def execFlitAckReceive (g seq : Nat) (s : State) : Host.Outcome State Fault Refusal :=
  let x := s.group g
  if !x.carries then .next s
  else
    let s1 := s.setGroup g { x with retry := x.retry.filter (fun n => seq < n), lane := x.lane.filter (fun n => seq < n) }
    let left := s1.fab.notices.filter (fun n => !n.sent.any (fun e => e.1 == g && e.2 ≤ seq))
    .next ({ s1 with fab := { s1.fab with notices := left } } : State).settle

/-! ## Arrival of requests, and the fabric manager -/

/-- A request of another package arrives by a group (R346, R354): served while the group carries it, answered with a retry
once it has drained, held by the link in a width operation. -/
def execRemoteRequestArrive (r : FarRequest) (s : State) : Host.Outcome State Fault Refusal :=
  let x := s.group (s.evenOf r.group)
  if 32 ≤ r.group || !x.ualink then .next s
  else
    match x.st, x.op with
    | .up, _ => .next (s.serveInbound r)
    | _, some false => .next s
    | .quiesce, _ | .drain, _ => .next (s.serveInbound r)
    | .withdraw, _ | .retrain, _ | .publish, _ => .next (s.replyNow r .retry)
    | .off, _ | .down, _ => .next s

/-- The fabric manager gives the package its number and its routes (R351, R356), over the UALink channel, which does not train in
the recovery state (R365). -/
def execPackageNumberAssign (n : Nat) (routes : List (Nat × List Nat)) (s : State) : Host.Outcome State Fault Refusal :=
  if 1024 ≤ n || s.mgmt.recovery then .next s
  else
    let table := routes.foldl (fun t e => if e.1 < 1024 then Tab.set t e.1 (e.2.filter (· < 32)) else t) ([] : Tab (List Nat))
    .next ((State.changed s { s with fab := { s.fab with pkg := some n, routes := table } }).settle)

end Sys2Proof.Machine
end

