-- ==== Sys2Proof/Machine/Streams.lean ====
section
/-! DEFINITION. Streams: `binds` and `unbs` (R227, R229), and the stream unit's reads ahead and writes behind (R228). -/

namespace Sys2Proof.Machine

/-- The address of element `i` of a stream (R227). -/
def Stream.addr (st : Stream) (i : Nat) : Word :=
  st.base + BitVec.ofInt 64 ((i % st.count1 : Nat) * st.stride1 + (i / st.count1 : Nat) * st.stride2)

/-- The bytes of one element (R227). -/
def Stream.bytes (st : Stream) : Nat := if st.vec then regBytes st.es else 2 ^ st.es

/-- The number under which an element that waits on an empty line is parked (R270). -/
def Stream.parkedAs (st : Stream) (q : Nat) : Nat := 2 ^ 60 + 16 * st.moved + q

/-- Whether a binding may end: no output element is under way, and no input read is in flight; one that waits on an empty line
or at an admission point is (R229). -/
def Task.streamIdle (t : Task) (q : Nat) : Bool :=
  match Tab.get? t.q.streams q with
  | none => true
  | some st => if st.out then st.buf.isEmpty else (Tab.get? t.q.parked (st.parkedAs q)).isNone

/-- The wait of `unbs`, and of `binds` on a bound stream (R227, R229). -/
def waitStream (q : Nat) (_ : Args) (s : State) : Option Stop :=
  if s.cur.streamIdle q then none else some (.block (.stream q))

/-- Whether the ES and the upper bits of operand E of `binds` are in range (R227). -/
def streamShapeOk (vec : Bool) (e : Word) : Bool :=
  getBits e 54 10 == 0 && (if vec then 1 ≤ getBits e 48 6 && getBits e 48 6 ≤ 36 else getBits e 48 6 ≤ 3)

/-- `binds` (R227). -/
def execBinds (x : Syl) (s : State) : Host.Outcome State Fault Refusal :=
  let q := x.a.toNat
  runWait .A 0x058 x (waitStream q) plain (fun g s =>
    let vec := x.d.getLsbD 1
    if !streamShapeOk vec g.e.w then .error (.fault 15 none)
    else
      let st : Stream := {
        out := x.d.getLsbD 0
        vec := vec
        base := g.b.w
        stride1 := signed 32 (getBits g.c.w 0 32)
        stride2 := signed 32 (getBits g.c.w 32 32)
        count1 := getBits g.e.w 0 24
        count2 := getBits g.e.w 24 24
        es := getBits g.e.w 48 6
        hint := x.ch.toNat
        next := 0
        moved := 0
        buf := []
        after := s.cur.q.seq
        entered := 0 }
      .ok (s.onCur (fun t => { t with q := { t.q with streams := Tab.set t.q.streams q st } }))) s

/-- `unbs` (R229). -/
def execUnbs (x : Syl) (s : State) : Host.Outcome State Fault Refusal :=
  let q := x.a.toNat
  runWait .A 0x059 x (waitStream q) plain (fun _ s =>
    .ok (s.onCur (fun t => { t with q := { t.q with streams := Tab.erase t.q.streams q } }))) s

/-- Where the element of a stream whose turn it is lies, each piece with the address that a record of it names; through a sheaf
window the elements still to come, or the first of them (R184, R187, R227). -/
def State.streamReach (s : State) (c : Nat) (t : Task) (k : Acc) (st : Stream) (ext : List Host.Cell) (first : Bool) :
    Except Reach (List (Word × Piece) × State) :=
  let va := st.addr st.moved
  if !st.vec && va.toNat % st.bytes ≠ 0 then .error (.fault 6 va.toNat)
  else
    match s.resolve t k va st.bytes st.hint with
    | .error e => .error (.fault e.1 e.2)
    | .ok r =>
      match r.tgt with
      | .window w off len =>
        let es := (windowElems w off len).drop st.entered
        s.windowReach c st.after (some ext) w k st.hint (if first then es.take 1 else es)
      | .mem _ =>
        let ps := (if k == .read then s.loadTarget t va.toNat st.bytes r.tgt else r.tgt).pieces
        .ok (ps.map (fun p => (va, p)), s.resolved c r)

/-- A stream of a task changed. -/
def Task.setStream (t : Task) (q : Nat) (st : Stream) : Task :=
  { t with q := { t.q with streams := Tab.set t.q.streams q st } }

/-- An element read, or the fault that its read met. -/
def State.streamPut (s : State) (c q : Nat) (st : Stream) (d : Option Vec) (f : Option (Nat × Word)) : State :=
  let st' : Stream := { st with moved := st.moved + 1, buf := st.buf ++ [⟨s.fresh, d, f⟩] }
  (s.onTask c (fun t =>
    let u := t.setStream q st'
    { u with q := u.q.forget (st.parkedAs q) })).mint

/-- The stream unit reads one element ahead (R228). -/
def execStreamReadAhead (c q : Nat) (ext : List Host.Cell) (s : State) : Host.Outcome State Fault Refusal :=
  match s.task? c with
  | none => .next s
  | some t =>
    match Tab.get? t.q.streams q with
    | none => .next s
    | some st =>
      if !t.live || st.out || 16 ≤ st.buf.length || st.total ≤ st.moved || !t.performedBelow st.after then .next s
      else
        match s.streamReach c t .read st ext false with
        | .error (.fault code va) => .next (s.streamPut c q st none (some (code, BitVec.ofNat 64 va)))
        | .error (.empty va) => .next (s.raiseFill c (st.parkedAs q) va)
        | .error _ => .next s
        | .ok (es, s1) =>
          let ps := es.map (·.2)
          if s.piecesHeld c st.after ps then .next s
          else if ps.any s.heldPiece then
            .next ((s.onTask c (fun t => t.park (st.parkedAs q) (st.addr st.moved) none)).noteHeld (st.addr st.moved) ps)
          else
            match s.emptyAt (st.addr st.moved) ps with
            | some va => .next (s.raiseFill c (st.parkedAs q) va)
            | none =>
              match s.lostPiece ext ps with
              | some (pa, cause) =>
                .next (((s.streamPut c q st none (some (16, st.addr st.moved))).logError (0x500400 + 0x20 * s.recordGroup pa) cause
                  t.no (BitVec.ofNat 64 pa)).ungone pa)
              | none =>
                let bs := s.loadPiecesFrom ext t.q ps
                let v := if st.vec then unpackReg st.es bs else BitVec.ofNat 1024 (leNat bs)
                .next ((s1.touch ps).streamPut c q st (some v) none)

/-- The stream unit writes the oldest landed element of an output stream (R228): it enters the store buffer, element by element
through a scatter window, with an access number that no token covers. -/
def execStreamWriteBehind (c q : Nat) (s : State) : Host.Outcome State Fault Refusal :=
  match s.task? c with
  | none => .next s
  | some t =>
    match Tab.get? t.q.streams q with
    | none => .next s
    | some st =>
      match st.buf with
      | [] => .next s
      | e :: rest =>
        match e.data with
        | none => .next s
        | some v =>
          if !t.live || !st.out || !t.performedBelow st.after then .next s
          else
            let gone : Stream := { st with moved := st.moved + 1, buf := rest, entered := 0 }
            match s.streamReach c t .write st [] false, s.streamReach c t .write st [] true with
            | .error (.fault _ va), _ => .next (s.onTask c (fun t => (t.setStream q gone).late (BitVec.ofNat 64 va)))
            | .error _, _ => .next s
            | _, .error _ => .next s
            | .ok (all, _), .ok (es, s1) =>
              let ps := es.map (·.2)
              if s.piecesHeld c st.after ps then .next s
              else
                let bs := if st.vec then packReg st.es v else toLe st.bytes v.toNat
                let left := (all.map (·.2.len)).foldl (· + ·) 0
                let st' : Stream := if es.length == all.length then gone else { st with entered := st.entered + 1 }
                let ls := splitStore ((es.map (·.1)).headD 0) ps (bs.drop (bs.length - left))
                let t1 := ((s1.task? c).getD t).setStream q st'
                let qs := t1.q.bufferAll ls (2 ^ 48)
                if 16 < qs.buffer.length then .next s else .next (s1.setTask c { t1 with q := qs })

end Sys2Proof.Machine
end

