-- ==== Sys2Proof/Machine/Gleaner.lean ====
section
/-! DEFINITION. The Gleaner (R267 to R274) and the acceptance engine (R275 to R280). -/

namespace Sys2Proof.Machine

/-! ## Regions (R267, R268) -/

/-- A field of a region entry: its word, lowest bit and width. -/
def State.regionField (s : State) (n word lo w : Nat) : Nat := getBits (s.regionWord n word) lo w

/-- The tag of the stored keys and values. -/
def State.kvTag (s : State) (n : Nat) : Nat := s.regionField n 6 32 6

/-- The tenant of a region. -/
def State.regionTenant (s : State) (n : Nat) : Nat := s.regionField n 3 48 6

/-- Whether a group lies in a valid region as it stands now. -/
def State.groupLives (s : State) (n token layer : Nat) : Bool :=
  (s.regionWord n 3).getLsbD 63 && token < s.regionField n 3 0 32 && s.regionField n 3 32 8 ≤ layer &&
    layer < s.regionField n 3 32 8 + s.regionField n 3 40 8

/-- The addresses of the lines of a group, K's first (R267). -/
def State.groupVas (s : State) (n token layer : Nat) : List Word :=
  let off := (layer - s.regionField n 3 32 8) * s.regionField n 2 32 32 + token * s.regionField n 2 0 32
  let lines (base : Nat) : List Word :=
    (List.range (s.regionSpan n / 64)).map (fun i => BitVec.ofNat 64 (base + off + 64 * i))
  lines (s.regionField n 0 0 56) ++ lines (s.regionField n 1 0 56)

/-- The Gleaner's accesses: those of the region's tenant at PL 0, on the requesting plot. -/
def State.gleaner (s : State) (plot n : Nat) : Who := { plot := plot, tenant := s.regionTenant n, pl := 0 }

/-- The physical lines of a group that translate, whoever may read them (R273). -/
def State.groupLines (s : State) (plot n token layer : Nat) : List Nat :=
  (s.groupVas n token layer).filterMap (fun va =>
    match s.checkAccess { s.gleaner plot n with pl := 2 } .read va.toNat 64 with
    | .ok c => c.pieces.head?.map (fun p => p.pa / 64)
    | .error _ => none)

/-- Whether a line lies in a group with a request queued or held (R270, R336). -/
def State.lineAsked (s : State) (line : Nat) : Bool :=
  (List.range 4).any (fun d =>
      (s.die d).fills.any (fun e => match e with
        | .fill r t l p => (s.groupLines p r t l).contains line
        | _ => false)) ||
    s.plots.any (fun e => e.2.fills.any (fun f => (s.groupLines e.1 f.1 f.2.1 f.2.2).contains line))

/-! ## The fill queue (R270) -/

/-- A place of a die's fill queue is free: a held request enters. -/
def State.pullFill (s : State) (die : Nat) : State :=
  match (List.range 32).find? (fun i => !(s.plot (32 * die + i)).fills.isEmpty) with
  | none => s
  | some i =>
    let n := 32 * die + i
    let p := s.plot n
    match p.fills with
    | [] => s
    | f :: rest =>
      let d := s.die die
      (s.setPlot n { p with fills := rest }).setDie die { d with fills := d.fills ++ [.fill f.1 f.2.1 f.2.2 n] }

/-- The first entry of a die's fill queue goes, and a held request enters. -/
def State.popFill (s : State) (die : Nat) : State :=
  let d := s.die die
  (s.setDie die { d with fills := d.fills.drop 1 }).pullFill die

/-- An access that parked without a request raises it again after 4,096 cycles (R270). -/
def execFillRequestReraise (c : Nat) (s : State) : Host.Outcome State Fault Refusal :=
  match s.task? c with
  | none => .next s
  | some t =>
    match t.q.parked.find? (fun e => e.2.2.any (fun at_ => at_ + 4096 ≤ s.cycle)) with
    | none => .next s
    | some (seq, va, _) => .next (s.askFill c seq va)

/-- The requests of a glean for its lines, as far as there is room: how many lines are left (R274). -/
def State.expand (s : State) (w : Who) : Nat → Word → State × Nat
  | 0, _ => (s, 0)
  | n + 1, va =>
    let next := va + 64
    match s.checkAccess w .read va.toNat 64 with
    | .error _ => s.expand w n next
    | .ok c =>
      match c.pieces.head?, s.fillGroup w.tenant va.toNat with
      | some p, some (r, tok, l) =>
        if s.full p.pa then s.expand w n next
        else
          let e := s.enqueueFill w.plot r tok l
          if e.2 then e.1.expand w n next else (s, n + 1)
      | _, _ => s.expand w n next

/-- The Gleaner expands a glean into requests for the empty lines of its range (R274). Where the queue has no room for them all,
the entry goes behind the others with the lines that are left (DESIGN CHOICE, log entry 15). -/
def execGleanExpand (die : Nat) (s : State) : Host.Outcome State Fault Refusal :=
  let d := s.die die
  match d.fills with
  | .glean id uid tenant pl addr count plot :: rest =>
    let last (va : Word) (n : Nat) : FillEntry := .glean id uid tenant pl va n plot
    let r := (s.setDie die { d with fills := rest ++ [last addr count] }).expand { plot := plot, tenant := tenant, pl := pl }
      count addr
    let d1 := r.1.die die
    let others := d1.fills.filter (· != last addr count)
    .next (if r.2 = 0 then ((r.1.setDie die { d1 with fills := others }).pullFill die).onTask uid (fun t => t.done id)
      else
        let left := last (addr + BitVec.ofNat 64 (64 * (count - r.2))) r.2
        r.1.setDie die { d1 with fills := d1.fills.map (fun e => if e = last addr count then left else e) })
  | _ => .next s

/-! ## The data of a group (R271) -/

/-- `n` packed elements of a tag in bytes. -/
def packedElems (tag n : Nat) (bs : List Byte) : List Num :=
  let x := leNat bs
  (List.range n).map (fun i => elemValue tag (packedAt tag 0 x i))

/-- The hidden state normalised (R271). -/
def normalise (layer : Bool) (h gain bias : List Num) (eps : Num) : List (BitVec 32) :=
  let dm := Num.ofInt h.length
  let root (x : Num) : Num := f32 (round32 (x.add eps).rsqrt)
  if !layer then
    let ms := f32 (round32 ((exactSum (h.map (fun x => x.mul x))).div dm))
    let r := root ms
    h.zipIdx.map (fun x => round32 ((x.1.mul r).mul (gain.getD x.2 .nan)))
  else
    let mu := f32 (round32 ((exactSum h).div dm))
    let ds := h.map (fun x => x.add mu.negate)
    let vr := f32 (round32 ((exactSum (ds.map (fun x => x.mul x))).div dm))
    let r := root vr
    ds.zipIdx.map (fun x => round32 (((x.1.mul r).mul (gain.getD x.2 .nan)).add (bias.getD x.2 .nan)))

/-- One pair of keys rotated (R271). -/
def rotatePair (theta : BitVec 32) (pos hd i : Nat) (a b : BitVec 32) : List (BitVec 32) :=
  let ang := round32 ((Num.ofInt pos).mul (f32 (pow32 theta i hd)))
  let c := f32 (cos32 ang)
  let n := f32 (sin32 ang)
  [round32 (((f32 a).mul c).add ((f32 b).mul n).negate), round32 (((f32 a).mul n).add ((f32 b).mul c))]

/-- The rotation of every head (R271). -/
def rotate (theta : BitVec 32) (pos hd : Nat) : Nat → List (BitVec 32) → List (BitVec 32)
  | j, a :: b :: rest => rotatePair theta pos hd (j % hd / 2) a b ++ rotate theta pos hd (j + 2) rest
  | _, ks => ks

/-- Whether a layer record keeps R269 and R155. -/
def layerRecordOk (atag : Nat) (norm : Bool) (lr : List Byte) : Bool :=
  let wtag := getBits (wordAt lr 0x10) 32 6
  1 ≤ wtag && wtag ≤ 28 && blockLen wtag == 0 && pairOk true atag wtag && getBits (wordAt lr 0x10) 0 32 % 64 == 0 &&
    (wordAt lr 0x18).toNat % 4 == 0 && (!norm || (wordAt lr 0x20).toNat % 4 == 0)

/-- The rows of a weight matrix, and one product row with it (R155, R271). -/
def weightRow (wtag dkv : Nat) (a : List Num) (rows : List (List Byte)) : List (BitVec 32) :=
  let ws := rows.map leNat
  (List.range dkv).map (fun n => acreElement a (ws.map (fun w => elemValue wtag (packedAt wtag 0 w n))) [] [] 32 none)

/-- The weight tag of the layer record of a group being served. -/
def Serving.wtag (v : Serving) : Nat := getBits (wordAt v.record 0x10) 32 6

/-- The bytes of a group's lines from the frozen hidden state and the layer record (R271). -/
def State.groupBytes (s : State) (w : Who) (ext : List Host.Cell) (v : Serving) :
    Except (Nat × Nat) (List Byte × State) :=
  let n := v.region
  let lr := v.record
  let dm := s.regionField n 6 0 16
  let dkv := s.regionField n 6 16 16
  let atag := s.regionField n 6 38 6
  let norm := s.regionField n 7 33 1 == 1
  let wtag := v.wtag
  let h := packedElems (s.regionField n 7 34 6) dm v.hidden
  let stride := getBits (wordAt lr 0x10) 0 32
  let rows (base : Word) : List (Word × Nat) :=
    (List.range dm).map (fun k => (base + BitVec.ofNat 64 (k * stride), packedBytes wtag dkv))
  let vecs := (wordAt lr 0x18, 4 * dm) :: (if norm then [(wordAt lr 0x20, 4 * dm)] else [])
  match s.engReads w ext vecs with
  | .error e => .error e
  | .ok (gs, s1) =>
    let eps := f32 ((wordAt lr 0x28).setWidth 32)
    let xn := normalise norm h (packedElems 31 dm (gs.getD 0 [])) (packedElems 31 dm (gs.getD 1 [])) eps
    let a := xn.map (fun x => elemValue atag (cvtTag atag false (f32 x)))
    match s1.engReads w ext (rows (wordAt lr 0) ++ rows (wordAt lr 8)) with
    | .error e => .error e
    | .ok (bs, s2) =>
      let k0 := weightRow wtag dkv a (bs.take dm)
      let vs := weightRow wtag dkv a (bs.drop dm)
      let k := if s.regionField n 7 32 1 = 1 then
          rotate ((s.regionWord n 7).setWidth 32) (getBits (wordAt v.exit 0) 32 32) (s.regionField n 6 48 16) 0 k0
        else k0
      let pack (xs : List (BitVec 32)) : List Byte := packRow (s.kvTag n) (xs.map (fun x => cvtTag (s.kvTag n) false (f32 x)))
      .ok (pack k ++ pack vs, s2)

/-- The code of a layer record that breaks the rules, in place of an access's. -/
def badRecord : Nat := 256

/-- The records and the hidden state read as the service of a group starts: none where its row has not exited below the layer
(R269, R271). A record that breaks the rules fails at its address (R273). -/
def State.groupRecords (s : State) (w : Who) (ext : List Host.Cell) (n token layer : Nat) :
    Except (Nat × Nat) (Option Serving × State) :=
  let dm := s.regionField n 6 0 16
  let htag := s.regionField n 7 34 6
  match s.engRead w ext (BitVec.ofNat 64 (s.regionField n 4 0 56 + 16 * token)) 16 with
  | .error e => .error e
  | .ok (x, s1) =>
    let rcw : BitVec 32 := (wordAt x 0).setWidth 32
    if rcState rcw ≠ 2 || layer ≤ rcBlock rcw then .ok (none, s1)
    else
      match s1.engRead w ext (wordAt x 8) (packedBytes htag dm) with
      | .error e => .error e
      | .ok (hs, s2) =>
        let la := s.regionField n 5 0 56 + 64 * (layer - s.regionField n 3 32 8)
        match s2.engRead w ext (BitVec.ofNat 64 la) 64 with
        | .error e => .error e
        | .ok (lr, s3) =>
          if !layerRecordOk (s.regionField n 6 38 6) (s.regionField n 7 33 1 == 1) lr then .error (badRecord, la)
          else .ok (some ⟨n, token, layer, x, hs, lr⟩, s3)

/-! ## Service (R271 to R273) -/

/-- A group's lines written where they are empty (R271); the state of a line of another package is free (DESIGN CHOICE, log entry
21). -/
def State.fillLines (s : State) (ws : List EngWrite) : State :=
  ws.foldl (fun s e =>
    match e.pieces.head? with
    | none => s
    | some p =>
      let empty := if s.isRemote p.pa then (Config.freeWord (2 ^ 60 + s.cycle)).getLsbD 0 else !s.full p.pa
      if empty then (s.writePieces .posted e.va e.pieces e.bytes).fillPieces e.pieces else s) s

/-- The stripes of one of the two products of a group (R272). -/
def stripes (dkv : Nat) : Nat := ceilDiv dkv 256

/-- The occupancy of stripe `i` of a group's one row, K's first, without the start of an idle array (R159, R272). -/
def stripeOcc (atag wtag dm dkv i : Nat) : Nat :=
  ceilDiv dm (min (passLen atag) (passLen wtag)) + 32 + ceilDiv (min 256 (dkv - 256 * (i % stripes dkv))) 64

/-- The Gleaner's command for a stripe: no opcode, its number in `d`. -/
def gleanCmd (stripe now : Nat) : AcreCmd := ⟨0, 0x400, 0, stripe, 0, 0, 0, 0, 0, 0, 0, [], now, none⟩

/-- The lease-table entry of a die's Gleaner at a plot. -/
def Plot.gleanerLease (p : Plot) (die : Nat) : Option (Nat × Lease) := p.leases.find? (fun e => e.2.holder == .gleaner die)

/-- A die's Gleaner asks for the Acre of a plot at a priority, or its entry waits with the first stripe (R153, R270). -/
def State.leaseGleaner (s : State) (die plot prio : Nat) : State :=
  let p := s.plot plot
  match p.gleanerLease die with
  | some (e, l) =>
    if l.cmds.isEmpty then s.setPlot plot { p with leases := Tab.set p.leases e { l with cmds := [gleanCmd 0 s.cycle] } } else s
  | none =>
    if p.waiting.any (·.holder == .gleaner die) then s
    else (s.setPlot plot { p with waiting := insertReq ⟨.gleaner die, prio, none⟩ p.waiting }).grantNext plot

/-- The first request of a die's queue is done with: it goes, and so does the Gleaner's lease at its plot. -/
def State.endFill (s : State) (die plot : Nat) : State :=
  let s0 := s.popFill die
  let s1 := s0.setDie die { s0.die die with serving := none }
  let p := s1.plot plot
  let s2 := s1.setPlot plot { p with waiting := p.waiting.filter (fun r => r.holder != .gleaner die) }
  match p.gleanerLease die with
  | some (e, _) => s2.freeLease plot e
  | none => s2

/-- The accesses of a task that are parked on lines, by number and address (R270). -/
def State.parkedOn (s : State) (t : Task) (lines : List Nat) : List (Nat × Word) :=
  (t.q.parked.filter (fun e =>
    match s.checkAccess t.who .read (e.2.1.toNat / 64 * 64) 64 with
    | .ok c => c.pieces.any (fun p => (pieceLines p).any (fun l => lines.contains l && s.empties.contains l))
    | .error _ => false)).map (fun e => (e.1, e.2.1))

/-- A parked access ends as a failed access: zero bytes, and a late-access fault; an element of an input stream keeps its
failure for the slot that consumes it (R190, R228, R273). -/
def State.failOne (s : State) (uid seq : Nat) (va : Word) : State :=
  match s.task? uid with
  | none => s
  | some t =>
    match t.q.streams.find? (fun e => e.2.parkedAs e.1 == seq) with
    | some (q, st) => s.streamPut uid q st none (some (16, va))
    | none =>
      let s1 := match t.q.stores with
        | .marker id n _ _ _ _ _ :: _ => if n = seq then s.failMarker uid id else s.loseAccess uid seq
        | _ => s.loseAccess uid seq
      s1.onTask uid (fun t => ({ t with q := t.q.forget seq } : Task).late va)

/-- The accesses of a task that are parked on lines end as failed accesses (R273). -/
def State.failParked (s : State) (uid : Nat) (t : Task) (lines : List Nat) : State :=
  (s.parkedOn t lines).foldl (fun s e => s.failOne uid e.1 e.2) s

/-- A failed read of the Gleaner: logged with the first parked reader, and the readers end as failed (R273, R371). The
code of a bad record, and the context where no reader is parked, are free values (DESIGN CHOICE, log entry 5). -/
def State.gleanFail (s : State) (die code va : Nat) (lines : List Nat) : State :=
  let free := (Config.freeWord s.fresh).toNat
  let who := (s.tasks.find? (fun e => !(s.parkedOn e.2 lines).isEmpty)).elim (free / 256) (fun e => e.2.no)
  let s1 := (s.logError (0x500100 + 0x20 * die) (if code = badRecord then free % 256 else code) who (BitVec.ofNat 64 va)).mint
  s1.tasks.foldl (fun s e => s.failParked e.1 e.2 lines) s1

/-- The first request of a queue fails. -/
def State.failFill (s : State) (w : Who) (ext : List Host.Cell) (die n token layer plot code va : Nat) : State :=
  ((s.logLost w ext 0 code va).gleanFail die code va (s.groupLines plot n token layer)).endFill die plot

/-- The stripe that the Gleaner's entry waits with is run on the array, `s` being the machine behind its reads; its last one fills
the lines. None while the array is another's or still at it (R153, R159, R272). -/
def State.runStripe (s : State) (die plot : Nat) (occ : Nat → Nat) (total : Nat) (fin : State → State) : Option State :=
  let p := (s.plot plot).begin
  match p.gleanerLease die with
  | none => none
  | some (e, l) =>
    match l.cmds with
    | [] => none
    | c :: _ =>
      if p.running != some e then none
      else
        match p.turn s.cycle (p.startOf c) (occ c.d) true l.holder with
        | .begins => some (s.setPlot plot { p with began := some s.cycle })
        | .wait => none
        | .done start =>
          let more := c.d + 1 < total
          let l' : Lease := { l with cmds := if more then [gleanCmd (c.d + 1) c.since] else [] }
          let s1 := (s.setPlot plot { p with leases := Tab.set p.leases e l' }).accountAcre plot e l.holder true start (occ c.d)
          some (if more then s1 else ((fin s1).endFill die plot).bumpDie die 2)

/-- The service of a group starts: its records are read, and the Acre is asked for (R269, R270). -/
def State.startFill (s : State) (w : Who) (ext : List Host.Cell) (die n token layer plot : Nat) : State :=
  match s.groupRecords w ext n token layer with
  | .error (code, va) => if code = heldCode then s.holdAt w va else s.failFill w ext die n token layer plot code va
  | .ok (none, s1) => s1.endFill die plot
  | .ok (some v, s1) => (s1.setDie die { s1.die die with serving := some v }).leaseGleaner die plot (s.regionField n 3 54 5)

/-- The lines of a group resolved for their writes, with the bytes of each. -/
def State.fillTargets (s : State) (w : Who) (ext : List Host.Cell) (v : Serving) : Except (Nat × Nat) (List EngWrite × State) :=
  match s.groupBytes w ext v with
  | .error e => .error e
  | .ok (bs, s1) =>
    s1.engTargets w ext true ((s.groupVas v.region v.token v.layer).zipIdx.map (fun x => (x.1, (bs.drop (64 * x.2)).take 64)))

/-- The Gleaner serves the first request of its queue: on the Acre of the requesting plot, under a lease at LPRI (R270 to
R273). -/
def execGleanerServe (die : Nat) (ext : List Host.Cell) (s : State) : Host.Outcome State Fault Refusal :=
  match (s.die die).fills with
  | .fill n token layer plot :: _ =>
    let w := s.gleaner plot n
    if !s.groupLives n token layer then .next (s.endFill die plot)
    else
      match (s.die die).serving with
      | none => .next (s.startFill w ext die n token layer plot)
      | some v =>
        match s.fillTargets w ext v with
        | .error (code, va) => .next (if code = heldCode then s.holdAt w va else s.failFill w ext die n token layer plot code va)
        | .ok (ws, s1) =>
          let dkv := s.regionField n 6 16 16
          let occ := stripeOcc (s.regionField n 6 38 6) v.wtag (s.regionField n 6 0 16) dkv
          let leased := ((s.plot plot).gleanerLease die).any (fun e => !e.2.cmds.isEmpty)
          .next (if leased then (s1.runStripe die plot occ (2 * stripes dkv) (fun s => s.fillLines ws)).getD s
            else s.leaseGleaner die plot (s.regionField n 3 54 5))
  | _ => .next s

/-! ## The acceptance engine (R275 to R280) -/

/-- A port of a die: its two words (R277). -/
def State.port (s : State) (die i : Nat) : Word × Word :=
  (s.reg (0x410000 + 0x1000 * die + 16 * i), s.reg (0x410008 + 0x1000 * die + 16 * i))

/-- The line of a port. -/
def portLine (w : Word) : Nat := getBits w 6 46

/-- Whether a port holds a request that the engine has not taken. -/
def State.portAsks (s : State) (die i : Nat) : Bool :=
  let w := s.port die i
  w.1.getLsbD 63 && s.full (portLine w.1 * 64) && !(s.die die).taken.any (·.port == i)

/-- A port whose line is full is emptied, and its request taken (R276). -/
def State.takePort (s : State) (die i : Nat) : State :=
  let w := s.port die i
  let pa := portLine w.1 * 64
  let d := s.die die
  let addr := BitVec.ofNat 64 (getBits (s.word pa) 0 56)
  (s.setEmpty pa).setDie die { d with taken := d.taken ++ [(⟨i, getBits w.2 0 6, addr⟩ : AcceptReq)] }

/-- An entry of the request record and the descriptor as they are read (R275, R276). -/
structure Acceptance where
  seq : Word
  ring : Nat
  tent : Nat
  slotB : Nat
  window : Nat
  committed : Nat
  frag0 : Nat
  drafts : List Nat
  targets : List Word
deriving DecidableEq, Repr

/-- A token-ready word that holds a token (R253, R278). -/
def tokenOk (w : Word) : Bool := w.getLsbD 63 && getBits w 56 7 == 0

/-- The drafts accepted (R278). -/
def accepted : List Nat → List Word → Nat
  | d :: ds, t :: ts => if tokenOk t && d == getBits t 0 32 then accepted ds ts + 1 else 0
  | _, _ => 0

/-- The result word (R279). -/
def resultWord (err : Bool) (next acc token : Nat) : Word :=
  BitVec.ofNat 64 (2 ^ 63 + err.toNat * 2 ^ 62 + next % 256 * 2 ^ 48 + acc % 16 * 2 ^ 40 + token % 2 ^ 32)

/-- The maker of the acceptance engine's accesses for a request (R277). -/
def AcceptReq.who (q : AcceptReq) (die : Nat) : Who := { plot := 32 * die, tenant := q.tenant, pl := 0 }

/-- The descriptor and what the record names, read; the code of why not where one breaks R275 or R276 or a read fails. -/
def State.readAcceptance (s : State) (w : Who) (ext : List Host.Cell) (r : List Byte) :
    Except (Nat × Nat) (Acceptance × State) :=
  let ctl := wordAt r 0x20
  let t := getBits ctl 0 4
  if t = 0 || 8 < t || getBits ctl 4 4 ≠ 0 || getBits ctl 16 48 ≠ 0 || (wordAt r 0).toNat % 64 ≠ 0 ||
      (wordAt r 0x18).toNat % 8 ≠ 0 then .error (1, 0)
  else
    match s.engRead w ext (wordAt r 0) 64 with
    | .error e => .error e
    | .ok (d, s1) =>
      let ring := wordAt d 0
      let tent := wordAt d 8
      let slotB := getBits (wordAt d 0x10) 0 32
      let win := getBits (wordAt d 0x10) 32 32
      if ring.toNat % 64 ≠ 0 || 2 ^ 56 ≤ ring.toNat || tent.toNat % 64 ≠ 0 || 2 ^ 56 ≤ tent.toNat || slotB % 64 ≠ 0 ||
          slotB < 64 || 2 ^ 20 < slotB || win < 9 || 2 ^ 31 < win || (d.drop 0x20).any (· != 0) then .error (1, 0)
      else
        match s1.engRead w ext (wordAt r 8) (4 * t) true with
        | .error e => .error e
        | .ok (dr, s2) =>
          match s2.engRead w ext (wordAt r 0x10) (8 * (t + 1)) true with
          | .error e => .error e
          | .ok (tg, s3) =>
          .ok (⟨wordAt r 0, ring.toNat, tent.toNat, slotB, win, (wordAt d 0x18).toNat, getBits ctl 8 8,
            (List.range t).map (fun i => leNat ((dr.drop (4 * i)).take 4)),
            (List.range (t + 1)).map (fun i => wordAt tg (8 * i))⟩, s3)

/-- A line of an FE = 1 page (R275, R276), or the code of why the engine cannot reach it with the address. -/
def State.syncLine (s : State) (w : Who) (ext : List Host.Cell) (k : Acc) (va : Nat) : Except (Nat × Nat) Piece :=
  match s.checkAccess w k va 64 with
  | .error e => .error e
  | .ok c =>
    match s.engFail ext true 0 c.pieces, c.pieces with
    | some e, _ => .error (e.1, va + e.2)
    | none, [p] => if p.fe then .ok p else .error (13, va)
    | none, _ => .error (1, va)

/-- Every line of a list. -/
def State.syncLines (s : State) (w : Who) (ext : List Host.Cell) (k : Acc) (vas : List Nat) : Except (Nat × Nat) (List Piece) :=
  vas.mapM (s.syncLine w ext k)

/-- The lines of a slot. -/
def slotLines (base slotB i : Nat) : List Nat := (List.range (slotB / 64)).map (fun k => base + i * slotB + 64 * k)

/-- A line of another package acted on by a request, whose acknowledgement the engine awaits (R218, R278). -/
def State.sendOp (s : State) (p : Piece) (op : FarOp) : State :=
  match s.pathTo p.pa with
  | .ok (g, held) => s.request (.engine 0) 0 p.pa op noAlloc g held
  | .error c => (s.lostReq (.engine 0) s.fresh 0 p.pa (s.recordGroup p.pa) c).mint

/-- A line turned empty at its home. -/
def State.emptyLine (s : State) (p : Piece) : State := if s.isRemote p.pa then s.sendOp p .setEmpty else s.setEmpty p.pa

/-- A line copied with its full/empty state in one action (R278); the state of a line of another package is free (DESIGN CHOICE,
log entry 21). -/
def State.copyLine (s : State) (ext : List Host.Cell) (src dst : Piece) : State :=
  let full := if s.isRemote src.pa then (Config.freeWord s.fresh).getLsbD 0 else s.full src.pa
  let bs := s.readPiece ext src
  let s1 := s.mint
  if full then (s1.writePieces (.engine 0) 0 [dst] bs).fillPieces [dst]
  else if s.isRemote dst.pa then s1.sendOp dst (.vacate bs)
  else ((s1.store dst.pa bs).touch [dst]).setEmpty dst.pa

/-- The writes of an accepted request but the result word: slots copied to the ring, tentative lines emptied, C raised
(R278). The code of why not where a line breaks R275. -/
def State.commitSlots (s : State) (w : Who) (ext : List Host.Cell) (a : Acceptance) (n : Nat) :
    Except (Nat × Nat) State := do
  let js := List.range (n + 1)
  let sl ← s.syncLines w ext .read (js.flatMap (slotLines a.tent a.slotB))
  let dl ← s.syncLines w ext .write (js.flatMap (fun j => slotLines a.ring a.slotB ((a.committed + j) % a.window)))
  let al ← s.syncLines w ext .write ((List.range 9).flatMap (slotLines a.tent a.slotB))
  match s.engTarget w ext false (a.seq + 0x18) 8 with
  | .error e => .error e
  | .ok (c, s1) =>
    let s2 := (sl.zip dl).foldl (fun s e => s.copyLine ext e.1 e.2) s1
    let s3 := al.foldl State.emptyLine s2
    .ok (s3.writePieces (.engine 0) (a.seq + 0x18) c (toLe 8 ((a.committed + n + 1) % 2 ^ 64)))

/-- The failure of a result word logged (R278, R371). -/
def State.resultLost (s : State) (die port : Nat) (va : Word) : State := s.logError (0x500200 + 0x20 * die) 1 port va

/-- The result word written and its line set full; where it cannot be, the failure is logged (R278, R371). Behind the fabric the
engine awaits the answer. Or the write is held (R346). -/
def State.writeResult (s : State) (w : Who) (ext : List Host.Cell) (die : Nat) (q : AcceptReq) (va word : Word) :
    Except (Who × Nat) State :=
  if va.toNat % 8 ≠ 0 then .ok (s.resultLost die q.port va)
  else
    match s.engTarget w ext true va 8 with
    | .error e => if e.1 = heldCode then .error (w, e.2) else .ok ((s.logLost w ext 0 e.1 e.2).resultLost die q.port va)
    | .ok (ps, s1) =>
      if !ps.all (·.fe) then .ok (s.resultLost die q.port va)
      else
        let s2 := s1.engWrite 0 [⟨va, ps, toLe 8 word.toNat⟩]
        let span := (s1.fresh, s2.fresh)
        if s2.unacked span then .ok (s2.setDie die { s2.die die with committing := some ⟨q, span, va, word, word, true⟩ })
        else if (s2.lostIn span).isSome then .ok ((s2.noted span).resultLost die q.port va)
        else .ok s2

/-- The RESULT of a request that is invalid or whose accesses have failed (R278). -/
def badResult (frag0 : Nat) : Word := resultWord true (frag0 + 9) 0 0xFFFFFFFF

/-- A request taken from a port served to its end, or as far as its writes behind the fabric let it (R218, R278); or an access of it
that is held (R346). -/
def State.serveAcceptance (s : State) (die : Nat) (ext : List Host.Cell) (q : AcceptReq) : Except (Who × Nat) State :=
  let w := q.who die
  match s.engRead w ext q.addr 64 true with
  | .error (code, va) =>
    if code = heldCode then .error (w, va)
    else .ok ((s.logLost w ext 0 code va).logError (0x500200 + 0x20 * die) 2 q.port (BitVec.ofNat 64 va))
  | .ok (r, s1) =>
    let frag0 := getBits (wordAt r 0x20) 8 8
    let result := wordAt r 0x18
    let fail (e : Nat × Nat) : Except (Who × Nat) State :=
      if e.1 = heldCode then .error (w, e.2)
      else (s1.logLost w ext 0 e.1 e.2).writeResult w ext die q result (badResult frag0)
    match s1.readAcceptance w ext r with
    | .error e => fail e
    | .ok (a, s2) =>
      let n := accepted a.drafts a.targets
      let last := a.targets.getD n 0
      let err := !tokenOk last
      match s2.commitSlots w ext a n with
      | .error e => fail e
      | .ok s3 =>
        let word := resultWord err (a.frag0 + if err then 9 else n) n (if err then 0xFFFFFFFF else getBits last 0 32)
        let span := (s2.fresh, s3.fresh)
        if s3.unacked span then
          .ok (s3.setDie die { s3.die die with committing := some ⟨q, span, result, word, badResult frag0, false⟩ })
        else s3.writeResult w ext die q result word

/-- The writes of a request behind the fabric have all been answered: its RESULT is written, and where one was lost with ERR; or it
was the RESULT itself (R218, R278). -/
def State.landAcceptance (s : State) (die : Nat) (ext : List Host.Cell) (c : Committing) : Except (Who × Nat) State :=
  let s1 := (s.noted c.span).setDie die { s.die die with committing := none }
  let lost := (s.lostIn c.span).isSome
  if c.written then .ok (if lost then s1.resultLost die c.req.port c.result else s1)
  else s1.writeResult (c.req.who die) ext die c.req c.result (if lost then c.failed else c.word)

/-- The descriptor that a request names, where its record can be read. -/
def State.seqNamed (s : State) (die : Nat) (ext : List Host.Cell) (q : AcceptReq) : Option Word :=
  match s.engRead (q.who die) ext q.addr 64 true with
  | .ok (r, _) => some (wordAt r 0)
  | .error _ => none

/-- The taken request that is served next: in the rotation of the ports, but behind an earlier one of its descriptor (R276). -/
def State.nextRequest (s : State) (die : Nat) (ext : List Host.Cell) : Option AcceptReq :=
  let d := s.die die
  let first (q : AcceptReq) : Bool :=
    let seq := s.seqNamed die ext q
    !(d.taken.takeWhile (· != q)).any (fun r => seq.isSome && s.seqNamed die ext r == seq)
  ((List.range 16).map (fun i => (d.nextPort + i) % 16)).findSome? (fun i => d.taken.find? (fun q => q.port == i && first q))

/-- The acceptance engine of a die takes the request of a port whose line is full; or it serves the next of those taken (R276,
R278). -/
def execAcceptanceRequest (die port : Nat) (ext : List Host.Cell) (s : State) : Host.Outcome State Fault Refusal :=
  if 4 ≤ die || 16 ≤ port then .next s
  else if s.portAsks die port then .next (s.takePort die port)
  else
    match (s.die die).committing, s.nextRequest die ext with
    | some c, _ => .next (if s.unacked c.span then s else s.orHeld (s.landAcceptance die ext c))
    | none, none => .next s
    | none, some q =>
      let d := s.die die
      let s1 := s.setDie die { d with taken := d.taken.filter (· != q), nextPort := (q.port + 1) % 16 }
      .next (s.orHeld (s1.serveAcceptance die ext q))

end Sys2Proof.Machine
end

