-- ==== Sys2Proof/Machine/Place.lean ====
section
/-! DEFINITION. Placement of groups (R13, R315 to R317), bind records written by the management core (R309, R310), the loader
and the flip of planes (R256 to R259, R290, R324, R325, R370). -/

namespace Sys2Proof.Machine

/-! ## Room (R13, R315) -/

/-- Whether a plane holds a kernel. -/
def Plane.holds (p : Plane) (kernel : Nat) : Bool := p.valid && (p.word (0x100 + 8 * (kernel % 64))).getLsbD 63

/-- The free contexts of a plot, by rising number. -/
def State.freeContexts (s : State) (p : Nat) : List Nat :=
  ((List.range 32).map (32 * p + ·)).filter (fun c => (s.atCtx c).isNone)

/-- The tiles of a plot that tasks hold, those of an Aborted task that has yet to leave among them (R169). -/
def State.heldTiles (s : State) (p : Nat) : List Nat := (s.tasks.filter (fun e => e.2.plot == p)).flatMap (fun e => e.2.job.tiles)

/-- Whether a plot has what groups of a record need: the record allows it, and its plane holds the kernel unless the record is
a dispatch context's (R310, R315). -/
def State.plotSuits (s : State) (x : Slot) (p : Nat) : Bool :=
  x.allows p && (x.disp || (s.plot p).active.holds (x.get 0 40 6))

/-- Whether a plot takes groups of a record: it suits, and no flip is pending (R325). -/
def State.plotTakes (s : State) (x : Slot) (p : Nat) : Bool := s.plotSuits x p && !(s.plot p).flip

/-- The room of a plot for a record (R13). -/
def State.roomAt (s : State) (x : Slot) (p : Nat) : Nat := x.room (s.freeContexts p).length (s.heldTiles p).length

/-- The plots on which a group of a record picked at plot `p` is placed. -/
def Slot.targets (x : Slot) (p : Nat) : List Nat := if x.size ≤ 32 then [p] else x.quad (p / 4)

/-- Whether the next group of a slot has room at a plot, on the plots that count (R13). -/
def State.hasRoom (s : State) (x : Slot) (p : Nat) (counts : Nat → Bool) : Bool :=
  if x.size ≤ 32 then counts p && x.size ≤ s.roomAt x p
  else p % 4 == 0 && x.size ≤ (((x.targets p).filter counts).map (s.roomAt x)).foldl (· + ·) 0

/-- Whether the next group of a slot is placeable at a plot (R13, R315). -/
def State.placeable (s : State) (x : Slot) (p : Nat) : Bool := s.hasRoom x p (s.plotSuits x)

/-- Whether a plot's dispatcher may place the next group of a slot: placeable, with no flip pending (R316, R325). -/
def State.mayPlace (s : State) (x : Slot) (p : Nat) : Bool := s.hasRoom x p (s.plotTakes x)

/-- Whether the next index may be placed now: the accesses that a `grow` waits for have performed (R321). -/
def State.growsReady (s : State) (x : Slot) : Bool :=
  x.grows.all (fun g => x.next < g.1 || (s.task? g.2.1).all (fun t => t.homeBelow g.2.2))

/-- Whether a slot is bound with an index to place. -/
def State.pending (s : State) (x : Slot) : Bool := x.st == 3 && x.next < x.g && s.growsReady x

/-- Effective priority (R315). -/
def Slot.effective (x : Slot) : Nat := min (x.get 0 24 5) (x.get 0 32 5 + x.wait / 2 ^ 20)

/-- Whether a reservation keeps a slot's groups off a plot (R316). -/
def State.reservedAgainst (s : State) (n : Nat) (x : Slot) (p : Nat) : Bool :=
  (s.plot p).reserved.any (fun r => r != n && (s.slot r).st == 3 && x.effective ≤ (s.slot r).effective)

/-- Whether a slot is a candidate at a plot: its next group is placeable, or it is a quad gang that could be placed with
contexts and tiles free (R316). -/
def State.candidate (s : State) (n : Nat) (x : Slot) (p : Nat) : Bool :=
  s.pending x && !(x.targets p).any (s.reservedAgainst n x) &&
    (if x.size ≤ 32 then s.mayPlace x p
     else p % 4 == 0 && x.size ≤ x.room 32 0 * ((x.targets p).filter (s.plotTakes x)).length)

/-- The better of two candidates: priority, then the first slot after the last one placed (R316). -/
def betterSlot (last : Nat) (a b : Nat × Slot) : Nat × Slot :=
  let far (n : Nat) : Nat := (n + 1023 - last % 1024) % 1024
  if a.2.effective < b.2.effective || (a.2.effective == b.2.effective && far b.1 < far a.1) then b else a

/-- The slot that a plot's dispatcher picks (R316). -/
def State.pick (s : State) (p : Nat) : Option (Nat × Slot) :=
  match s.slots.filter (fun e => s.candidate e.1 e.2 p) with
  | [] => none
  | e :: es => some (es.foldl (betterSlot (s.plot p).lastSlot) e)

/-! ## Placement (R317) -/

/-- What a placement takes from a launch record again (R311). -/
structure Retaken where
  args : List Word
  ssize : Nat
  sbase : Nat
  ob : Word
  capw : Word
deriving DecidableEq, Repr

/-- Those fields of a record's bytes. -/
def retaken (bs : List Byte) : Retaken where
  args := (List.range 8).map (fun i => wordAt bs (8 * i))
  ssize := getBits (wordAt bs 0x60) 16 14
  sbase := getBits (wordAt bs 0x60) 0 14
  ob := BitVec.ofNat 64 (getBits (wordAt bs 0x68) 0 56)
  capw := wordAt bs 0x70

/-- Whether the fields taken again keep R311; `user` for a launcher at PL 0. -/
def retakenOk (bs : List Byte) (user : Bool) : Bool :=
  let sp := wordAt bs 0x60
  getBits sp 14 2 == 0 && getBits sp 30 34 == 0 && getBits sp 0 14 + 8 * getBits sp 16 14 ≤ 12288 &&
    getBits (wordAt bs 0x68) 56 8 == 0 && getBits (wordAt bs 0x68) 0 6 == 0 && (!user || wordAt bs 0x70 == 0) &&
    wordAt bs 0x78 == 0

/-- A record without a launch record starts its task with zeros (R310). -/
def Retaken.zero : Retaken := ⟨List.replicate 8 0, 0, 0, 0, 0⟩

/-- The coordinates of a task by its linear number (R317). -/
def Slot.coord (x : Slot) (group lin : Nat) : Word :=
  let nx := x.get 1 32 7 + 1
  let ny := x.get 1 40 7 + 1
  BitVec.ofNat 64 (group % 2 ^ 40 * 2 ^ 24 + lin / (nx * ny) * 2 ^ 14 + lin / nx % ny * 2 ^ 7 + lin % nx)

/-- The registers of a placed task: the arguments in s1 to s8 (R78). -/
def Retaken.regs (r : Retaken) : Regs :=
  { Regs.zero with s := Vector.ofFn (fun (i : Fin 64) => if 1 ≤ i.val && i.val ≤ 8 then r.args.getD (i.val - 1) 0 else 0) }

/-- The control registers of a task placed on a context (R85, R317). -/
def Slot.csrs (x : Slot) (r : Retaken) (group lin ctx bi bm : Nat) : Csrs :=
  { Csrs.zero with
    tsw := putBits 0 4 2 (x.get 0 56 2)
    bi := BitVec.ofNat 64 bi
    bm := BitVec.ofNat 64 bm
    ypmax := BitVec.ofNat 64 (max 256 (x.get 9 0 32))
    spillbase := BitVec.ofNat 64 ((r.sbase + ctx % 8 * r.ssize) % 2 ^ 14 * 64)
    spillsize := BitVec.ofNat 64 (r.ssize * 64)
    ovfptr := r.ob
    taskid := BitVec.ofNat 64 ctx
    gridid := BitVec.ofNat 64 x.grid
    tcoord := x.coord group lin
    tenant := BitVec.ofNat 64 x.tenant
    cap := r.capw &&& 0x80FFFFFFFFFFFFFF }

/-- One task of a group placed on a context: budgets drawn, tiles taken (R294, R317). -/
def State.placeTask (s : State) (n group lin ctx : Nat) (r : Retaken) : State :=
  let x := s.slot n
  let p := ctx / 32
  let y := s.plot p
  let bi := min (x.get 6 0 32) (x.get 7 0 48)
  let bm := min (x.get 6 32 32) (x.get 8 0 48)
  let held := s.heldTiles p
  let tiles := ((List.range 16).filter (fun a => !held.contains a)).take x.tiles
  let pc := if x.disp then BitVec.ofNat 64 (x.get 12 0 56)
    else BitVec.ofNat 64 (getBits (y.active.sched (getBits (y.active.word (0x100 + 8 * x.get 0 40 6)) 32 10 + 7)) 0 56)
  let job : Job := { Job.zero with
    slot := n
    grid := x.grid
    group := group
    coord := lin
    kernel := x.get 0 40 6
    ver := getBits (y.active.word 0) 0 32
    disp := x.disp
    prio := x.get 0 32 5
    ceil := x.get 0 24 5
    ob := r.ob
    ssize := r.ssize
    tiles := tiles
    issueTags := tiles.map (fun _ => 31) }
  let t : Task := { Task.zero with
    ctx := some ctx
    pc := pc
    regs := r.regs
    csr := x.csrs r group lin ctx bi bm
    job := job }
  let s1 := s.setSlot n ((x.put 7 0 48 (x.get 7 0 48 - bi)).put 8 0 48 (x.get 8 0 48 - bm))
  let s2 := s1.setPlot p { y with tiles := y.tiles.filter (fun e => !tiles.contains e.1) }
  (s2.setTask s2.fresh t).mint

/-- The contexts that the tasks of a group take, in order (R317). -/
def State.contextsFor (s : State) (x : Slot) (ps : List Nat) : List Nat :=
  ((ps.filter (s.plotTakes x)).flatMap (fun p => (s.freeContexts p).take (s.roomAt x p))).take x.size

/-- An index of a record is used: NEXT rises, and with the last one the record is drained (R314). -/
def State.useIndex (s : State) (n : Nat) : State :=
  let x := s.slot n
  let y := x.put 2 0 40 (x.next + 1)
  if x.next + 1 = x.g then (s.unreserve n).setSlot n (y.put 0 60 3 4) else s.setSlot n y

/-- A group that is not placed completes in error (R311). -/
def State.skipGroup (s : State) (n : Nat) : State :=
  let g := (s.slot n).next
  ((s.useIndex n).report (.launch n 5)).groupComplete n g true

/-- The tasks of a group placed on contexts. -/
def State.placeAll (s : State) (n group : Nat) (r : Retaken) (cs : List Nat) : State :=
  (cs.zipIdx).foldl (fun s c => s.placeTask n group c.2 c.1 r) s

/-- The next group of a slot placed on plots by plot `p`'s dispatcher, with what its launch record holds now (R316, R317).
The record keeps its age up to the end of the cycle, in which other plots pick it too. -/
def State.putGroup (s : State) (n p : Nat) (r : Retaken) : State :=
  let x := s.slot n
  let s1 := (s.setPlot p { s.plot p with lastSlot := n }).unreserve n
  let s2 := s1.setSlot n { x with live := Tab.set x.live x.next false, placedAt := s.cycle + 1 }
  (s2.placeAll n x.next r (s2.contextsFor x (x.targets p))).useIndex n

/-- The next group of a slot placed, or completed in error where its record cannot be read or is out of range; the read itself
while it is held at an admission point (R311, R346). -/
def State.placeGroup (s : State) (n p : Nat) (ext : List Host.Cell) : Except (Who × Nat) State :=
  let x := s.slot n
  let lrec := x.get 11 0 56
  if x.disp && lrec = 0 then .ok (s.putGroup n p Retaken.zero)
  else
    match s.recordRead x.who ext lrec with
    | .error (code, va) => if code = heldCode then .error (x.who, va) else .ok (s.skipGroup n)
    | .ok (bs, s1) =>
      .ok (if retakenOk bs (!x.disp && x.launcherPl == 0) then s1.putGroup n p (retaken bs) else s1.skipGroup n)

/-- Plots that have made their pick of the cycle (R316). -/
def State.picked (s : State) (ps : List Nat) : State :=
  ps.foldl (fun s p => s.setPlot p { s.plot p with pickedAt := s.cycle + 1 }) s

/-- The quad of a chosen gang reserved for it (R316). -/
def State.reserveQuad (s : State) (n p : Nat) : State :=
  (List.range 4).foldl (fun s i =>
    let y := s.plot (4 * (p / 4) + i)
    s.setPlot (4 * (p / 4) + i) { y with reserved := n :: y.reserved.filter (· != n) }) s

/-- Whether a plot that has yet to pick in this cycle picks a slot. -/
def State.picksNow (s : State) (n p : Nat) : Bool :=
  (s.plot p).pickedAt != s.cycle + 1 && (s.pick p).any (fun e => e.1 == n)

/-- The plots that lose the last index of a slot to plot `p` in this cycle: they pick again in the next one (R326). -/
def State.losers (s : State) (n p : Nat) : List Nat :=
  if (s.slot n).next + 1 = (s.slot n).g then ((List.range 128).filter (p < ·)).filter (s.picksNow n) else []

/-- A plot's dispatcher places one whole group, or reserves its quad: once in a cycle, and behind every lower plot that picks
the same record in the cycle (R316). -/
def execGroupPlace (plot : Nat) (ext : List Host.Cell) (s : State) : Host.Outcome State Fault Refusal :=
  if 128 ≤ plot || (s.plot plot).pickedAt == s.cycle + 1 then .next s
  else
    match s.pick plot with
    | none => .next s
    | some (n, x) =>
      if (List.range plot).any (s.picksNow n) then .next s
      else if s.mayPlace x plot then
        .next (s.orHeld ((s.placeGroup n plot ext).map (fun t => t.picked (plot :: s.losers n plot))))
      else .next ((s.reserveQuad n plot).picked [plot])

/-! ## Bind records (R309, R310) -/

/-- Whether a bind record keeps the limits of R309 and, for a dispatch context, of R310. -/
def Slot.ok (x : Slot) : Bool :=
  x.get 0 54 2 == 0 && x.get 0 46 2 == 0 && x.get 0 37 3 == 0 && x.get 0 29 3 == 0 && x.get 0 23 1 == 0 && x.get 0 0 20 == 0 &&
    x.get 0 56 2 ≤ 2 && x.get 0 32 5 ≤ x.get 0 24 5 && x.get 0 24 5 ≤ 23 && x.tiles ≤ 4 &&
    x.get 1 39 1 == 0 && x.get 1 47 1 == 0 && x.get 1 55 9 == 0 && x.size ≤ 128 && x.grid != 0 &&
    x.get 2 40 24 == 0 && x.get 3 40 24 == 0 && x.get 7 48 16 == 0 && x.get 8 48 16 == 0 && x.get 9 32 32 == 0 &&
    x.get 10 56 8 == 0 && x.get 10 0 3 == 0 && x.get 11 56 8 == 0 && x.get 11 0 6 == 0 && x.get 12 56 8 == 0 &&
    x.get 13 13 51 == 0 && x.get 14 0 64 == 0 && x.get 15 0 64 == 0 &&
    (!x.disp || (x.size == 1 && x.g == 1 && x.next == 0 && x.get 13 12 1 == 0))

/-- A held record that the management core sets to bound: checked, then bound or completed in error (R309, R310, R314). -/
def State.bindHeld (s : State) (n : Nat) : State :=
  let x := s.slot n
  let check (s : State) (fresh : Bool) : State :=
    let y := s.slot n
    if !y.ok then s.launchError n 3
    else if y.g = 0 then (s.setCounter n 0).gridComplete n
    else if !y.fits then s.launchError n 4
    else if fresh then s.bind n
    else s.setSlot n { y.put 0 60 3 3 with holding := false }
  match x.launcher with
  | some _ => check s true
  | none =>
    let z : Slot := { x with launcherPl := x.get 0 56 2 }
    match s.counterAt z.who (x.get 10 0 56) with
    | none => (s.report (.launch n 2)).freeSlot n
    | some (p, s1) => check (s1.setSlot n { z with ctr := p.pa, ctrPol := p.pol }) false

/-- A held record given up by the management core (R314). -/
def State.dropHeld (s : State) (n : Nat) : State :=
  if (s.slot n).launcher.isSome then (s.setCounter n (BitVec.ofNat 64 (2 ^ 63))).gridComplete n else s.freeSlot n

/-- Words of a slot written while its state lets them be. -/
def State.writeSlot (s : State) (n : Nat) (words : List Word) : State :=
  let x := s.slot n
  let y : Slot := { x with words := Vector.ofFn (fun (i : Fin 16) => words.getD i.val 0) }
  if x.st = 0 then (if y.v && y.get 0 60 3 == 2 then s.setSlot n y else s)
  else if x.st = 2 then
    if y.st = 0 then s.dropHeld n
    else
      let s1 := s.setSlot n (y.put 0 60 3 2)
      if y.st = 3 then s1.bindHeld n else s1
  else s

/-- A bind record written (R309): every field while the slot is held, and a free slot to open a channel (R310). -/
def execSlotTableWrite (w : Writer) (slot : Nat) (words : List Word) (s : State) : Host.Outcome State Fault Refusal :=
  .next (s.served w (s.mayWrite w) (fun s => if slot < 1024 then s.writeSlot slot words else s))

/-! ## Planes (R256 to R259, R290, R325) -/

/-- The class of a number. -/
def clsOf (n : Nat) : Option Cls := [Cls.A, Cls.S, Cls.V, Cls.M, Cls.C][n]?

/-- Whether a charge override keeps R290. -/
def overrideOk (e : Word) : Bool :=
  match clsOf (getBits e 60 3) with
  | none => false
  | some c => (rowOf c (getBits e 50 10)).isSome && getBits e 42 8 == 0 && getBits e 8 4 == 0

/-- Whether an entry of the schedule or fragment table keeps R257 and R4. -/
def jumpOk (e : Word) : Bool := getBits e 56 7 == 0 && (!e.getLsbD 63 || getBits e 0 3 == 0)

/-- Whether the reserved fields of a continuation record are 0 (R4, R381). -/
def Plane.contOk (p : Plane) (i : Nat) : Bool :=
  let a := 0x44000 + getBits (p.word 0x18) 0 15 + 32 * i
  getBits (p.word a) 40 24 == 0 && p.word (a + 24) == 0

/-- Whether a kernel of a plane keeps R256 and R257. -/
def Plane.kernelOk (p : Plane) (k : Nat) : Bool :=
  let e := p.word (0x100 + 8 * k)
  let nph := getBits e 48 8
  let sched := getBits e 32 10
  getBits e 56 7 == 0 && getBits e 42 6 == 0 && getBits e 0 32 == 0 &&
    (!e.getLsbD 63 || (1 ≤ nph && nph ≤ 128 && sched + 8 * nph ≤ 1024 &&
      (List.range nph).all (fun j => (p.sched (sched + 8 * j + 7)).getLsbD 63)))

/-- Whether an image keeps every limit, with no reserved field set, nor a byte of the area that is zero (R4, R256 to R259, R290,
R380, R381). -/
def Plane.ok (p : Plane) : Bool :=
  let es := ((List.range 256).map (fun n => p.word (0x800 + 8 * n))).filter (fun e => e.getLsbD 63)
  getBits (p.word 0) 38 25 == 0 && getBits (p.word 8) 0 16 == 0 && getBits (p.word 0x10) 0 15 == 0 &&
    p.bytes.all (fun e => e.1 < 0x43A00 || 0x44000 ≤ e.1) &&
    (List.range 64).all p.kernelOk && (List.range 64).all (fun i => p.word (0x43000 + 8 * i) &&& 0xFFFFFF0F == 0) &&
    (List.range (getBits (p.word 0x18) 32 16)).all p.contOk &&
    (List.range 1024).all (fun i => jumpOk (p.sched i)) && (List.range 256).all (fun i => jumpOk (p.word (0x43200 + 8 * i))) &&
    es.all overrideOk && (es.map (fun e => getBits e 50 13)).Nodup

/-- The bytes that the loader writes: those of the image, V of the header set (R256). -/
def loaded (i : Nat) (b : Byte) : Byte := if i = 7 then b ||| 0x80 else b

/-- A plane of an image's bytes. -/
def planeOf (bs : List Byte) : Plane where
  valid := true
  bytes := (bs.zipIdx.map (fun e => (e.2, loaded e.2 e.1))).filter (fun e => e.2 != 0)

/-- The status of a loader written. -/
def State.loaderStatus (s : State) (n : Nat) (v : Word) : State :=
  let p := s.plot n
  s.setPlot n { p with loader := { p.loader with status := v } }

/-- The bytes of an image. -/
def imageBytes : Nat := 0x4C000

/-- The loader loads the image at its address, a physical one, with the signature behind it: verified, checked, and written
to the shadow plane (R324, R363, R370). Status: 0 idle, 2 loaded, 3 signature bad, 4 a limit broken (DESIGN CHOICE, log entry 24). -/
def State.load (s : State) (n : Nat) : State :=
  let p := s.plot n
  let a := getBits p.loader.image 0 56
  let img := s.bytes a imageBytes
  let q := planeOf img
  let s1 := s.setPlot n { p with shadow := Plane.zero }
  if !Config.verify [] img (s.bytes (a + imageBytes) 132) then s1.loaderStatus n 3
  else if !q.ok then s1.loaderStatus n 4
  else ((s1.setPlot n { p with shadow := q }).loaderStatus n 2).measure 3 (getBits (q.word 0) 0 32) n img

/-- GO of a plot's loader (R370). -/
def execLoaderGo (w : Writer) (plot : Nat) (s : State) : Host.Outcome State Fault Refusal :=
  .next (s.served w (s.mayWrite w) (fun s => if plot < 128 then s.load plot else s))

/-- A flip requested through the loader registers (R325). -/
def execLoaderFlipRequest (w : Writer) (plot : Nat) (s : State) : Host.Outcome State Fault Refusal :=
  .next (s.served w (s.mayWrite w) (fun s => if plot < 128 then s.requestFlip plot else s))

/-- The drain point of a pending flip: the planes exchange roles (R325). -/
def execPlaneFlip (plot : Nat) (s : State) : Host.Outcome State Fault Refusal :=
  let p := s.plot plot
  if !p.flip || !p.shadow.valid || !(s.onPlot plot).all (fun e => e.2.phase == .yielded) then .next s
  else .next (s.setPlot plot { p with active := p.shadow, shadow := p.active, flip := false })

end Sys2Proof.Machine
end

