-- ==== Sys2Proof/Machine/Mgmt.lean ====
section
/-! DEFINITION. Ownership (R360 to R362), trust and configuration (R363 to R366), the reset sequence (R367), clocking
(R369), the tables in the management registers (R370 to R372), and the accesses of the host port and the management core
(R221, R359). -/

namespace Sys2Proof.Machine

/-! ## Ownership (R361) -/

/-- OWN written. -/
def State.setOwn (s : State) (w : Word) : State := { s with mgmt := { s.mgmt with own := w } }

/-- A change of OWNER, with PEND cleared: it is measured; the item is the new OWN word. -/
def State.setOwner (s : State) (code : Nat) : State :=
  let s1 := s.setOwn (putBits (putBits s.mgmt.own 4 2 code) 6 2 0)
  if s.owner = code then s1 else s1.measure 4 0 code (toLe 8 s1.mgmt.own.toNat)

/-- Whether a master's writes reach the package: in recovery only the board controller's do (R365). -/
def State.reaches (s : State) (m : Master) : Bool := !s.mgmt.overtemp && (!s.mgmt.recovery || m == .board)

/-- A command of OWNCLAIM, where it is allowed; else a refused write. -/
def State.claimed (s : State) (m : Master) (ok : Bool) (act : State → State) : State :=
  if !s.reaches m then s else if ok then act s else s.refuse (.master m)

/-- The core cycle: the management core runs at 1.5 GHz where a cycle is one of 2.7 GHz (R2). -/
def State.coreCycle (s : State) : Nat := s.cycle * 5 / 9

/-- Cycles in which a number of core cycles passes (R2). -/
def ofCore (n : Nat) : Nat := n * 9 / 5

/-- Whether a claim is settled before the one that made the present owner: it came in the same core cycle, and the board
controller goes before the host, the host before the fabric manager (R361). -/
def State.claimsFirst (s : State) (m : Master) : Bool :=
  Master.code m < s.owner && s.mgmt.claim.any (fun c => c.1 == s.coreCycle)

/-- A claim taken, with nothing left of one that it precedes in its core cycle but a refused write (R361, R362). -/
def State.takeClaim (s : State) (m : Master) : State :=
  let s1 := match s.mgmt.claim with
    | some (_, chain, log, n) =>
      if s.owner = 0 then s
      else ({ s with mgmt := { s.mgmt with
        own := putBits s.mgmt.own 4 2 0, chain := chain, log := log, logCount := n } } : State).refuse (.master m)
    | none => s
  let before := s1.mgmt
  let s2 := s1.setOwner (Master.code m)
  { s2 with mgmt := { s2.mgmt with claim := some (s.coreCycle, before.chain, before.log, before.logCount) } }

/-- `claim` (R361). -/
def execOwnclaimClaim (m : Master) (s : State) : Host.Outcome State Fault Refusal :=
  .next (s.claimed m ((s.owner == 0 || s.claimsFirst m) && (s.mgmt.step == 7 || s.mgmt.recovery)) (fun s => s.takeClaim m))

/-- `hand over` (R361). -/
def execOwnclaimHandover (m : Master) (target : BitVec 2) (s : State) : Host.Outcome State Fault Refusal :=
  .next (s.claimed m (s.owner == Master.code m && target != 0 && target.toNat != Master.code m) (fun s =>
    { s.setOwn (putBits s.mgmt.own 6 2 target.toNat) with
      mgmt := { (s.setOwn (putBits s.mgmt.own 6 2 target.toNat)).mgmt with pendSince := s.cycle } }))

/-- `accept` (R361). -/
def execOwnclaimAccept (m : Master) (s : State) : Host.Outcome State Fault Refusal :=
  .next (s.claimed m (s.pend == Master.code m) (fun s => s.setOwner (Master.code m)))

/-- `release` (R361). -/
def execOwnclaimRelease (m : Master) (s : State) : Host.Outcome State Fault Refusal :=
  .next (s.claimed m (s.owner == Master.code m) (fun s => s.setOwner 0))

/-- A handover lapses without an accept (R361). -/
def execHandoverLapse (s : State) : Host.Outcome State Fault Refusal :=
  if s.pend != 0 && s.mgmt.pendSince + ofCore 1500000000 ≤ s.cycle then .next (s.setOwn (putBits s.mgmt.own 6 2 0)) else .next s

/-- The channel of a master fails: the host's link or the management channel goes down (R361). -/
def execOwnerChannelFail (m : Master) (s : State) : Host.Outcome State Fault Refusal :=
  match m with
  | .board => .next s
  | _ =>
    let s1 := if m = .host then { s with mgmt := { s.mgmt with hostUp := false } } else s
    .next (if s.owner = Master.code m then s1.setOwner 0 else s1)

/-- The board controller writes its heartbeat (R361, R362). -/
def execHeartbeatWrite (v : Word) (s : State) : Host.Outcome State Fault Refusal :=
  if s.mgmt.overtemp then .next s
  else .next { s with mgmt := { s.mgmt with heartbeat := v, heartbeatAt := s.cycle } }

/-- The board controller's heartbeat has gone unwritten (R361). -/
def execHeartbeatTimeout (s : State) : Host.Outcome State Fault Refusal :=
  if s.owner == 1 && s.mgmt.heartbeatAt + ofCore 3000000000 ≤ s.cycle then .next (s.setOwner 0) else .next s

/-! ## Quotes and configuration records (R364 to R366) -/

/-- A nonce is written, and the management core answers with its signature over the nonce, CHAIN and the entry count
(R364). -/
def State.quote (s : State) (nonce : List Byte) : State :=
  let m := s.mgmt
  { s with mgmt := { m with
    nonce := nonce
    quote := Config.sign (nonce ++ m.chain ++ toLe 8 m.logCount)
    quoteValid := true } }

/-- The nonce written (R364). In recovery no management core answers. -/
def execQuoteNonceWrite (w : Writer) (nonce : List Byte) (s : State) : Host.Outcome State Fault Refusal :=
  .next (s.served w (s.mayWriteBasic w && nonce.length == 64) (fun s =>
    if s.running then s.quote nonce else { s with mgmt := { s.mgmt with nonce := nonce, quoteValid := false } }))

/-- CFGSTAT written. -/
def State.cfgStat (s : State) (v : Nat) : State := { s with mgmt := { s.mgmt with cfgstat := v } }

/-- The signed image in CFGBUF. -/
def State.cfgImage (s : State) (n : Nat) : List Byte := (List.range n).map (fun i => Tab.getD s.mgmt.cfgbuf i 0)

/-- Whether a slot's record may be used: signed, in range, and not below the anti-rollback counter (R365). -/
def State.recordUsable (s : State) (img : List Byte) : Bool :=
  Config.recordSigned img && s.mgmt.rollback ≤ Config.recordVersion img && (Config.parseRecord img).isSome

/-- The slot that a new record goes to: true for B (R366). -/
def State.storeTarget (s : State) : Bool :=
  if s.mgmt.recovery then s.recordUsable s.mgmt.nvA && !s.recordUsable s.mgmt.nvB else !s.mgmt.inUseB

/-- CFGCMD := 1: the image is verified, its signature first, then VERSION and then the ranges of its fields, and its store begins
(R366). -/
def State.cfgStore (s : State) : State :=
  let n := (s.reg 0x21000).toNat
  let img := s.cfgImage n
  if n < 64 || 32768 < n then s.cfgStat 6
  else if !Config.recordSigned img then s.cfgStat 4
  else if Config.recordVersion img < s.mgmt.rollback then s.cfgStat 5
  else if (Config.parseRecord img).isNone then s.cfgStat 6
  else { s with mgmt := { s.mgmt with cfgstat := 1, storing := some (s.storeTarget, img) } }

/-- CFGCMD written (R366). -/
def execCfgcmdStore (w : Writer) (v : Word) (s : State) : Host.Outcome State Fault Refusal :=
  .next (s.served w (s.mayWriteBasic w && v == 1 && s.mgmt.storing.isNone) State.cfgStore)

/-- The non-volatile write ends (R366). What a failed one leaves in its slot is free (DESIGN CHOICE, log entry 5). -/
def execCfgcmdStoreComplete (nvOk : Bool) (s : State) : Host.Outcome State Fault Refusal :=
  match s.mgmt.storing with
  | none => .next s
  | some (toB, img) =>
    let m := s.mgmt
    let left := if nvOk then img else (List.range img.length).map (fun i => Config.freeByte (2 ^ 20 * s.fresh + i))
    let m1 : Mgmt := { m with storing := none, cfgstat := if !nvOk then 7 else if toB then 3 else 2 }
    .next { s.mint with mgmt := if toB then { m1 with nvB := left } else { m1 with nvA := left } }

/-! ## Reset (R367, R372) -/

/-- The machine as a reset leaves it: non-volatile memory stays, and what the model itself keeps. -/
def State.cleared (s : State) : State :=
  { State.reset with
    agenda := s.agenda
    fresh := s.fresh
    mgmt := { Mgmt.zero with
      nvA := s.mgmt.nvA, nvB := s.mgmt.nvB, rollback := s.mgmt.rollback, record := s.mgmt.record, inUseB := s.mgmt.inUseB,
      hostUp := false, step := 0 } }

/-- The slot that bring-up uses: the valid one of higher VERSION, true for B; none in recovery (R365). -/
def State.chosen (s : State) : Option (Bool × CfgRec × List Byte) :=
  let get (b : Bool) (img : List Byte) : Option (Bool × CfgRec × List Byte) :=
    if s.recordUsable img then
      (Config.parseRecord img).map (fun r => (b, { r with version := Config.recordVersion img }, img))
    else none
  match get false s.mgmt.nvA, get true s.mgmt.nvB with
  | some a, some b => if a.2.1.version < b.2.1.version then some b else some a
  | some a, none => some a
  | none, b => b

/-- Step 3: the record is chosen and measured, and the anti-rollback counter raised (R364, R365). -/
def State.takeRecord (s : State) (c : Bool × CfgRec × List Byte) : State :=
  ({ s with mgmt := { s.mgmt with record := c.2.1, inUseB := c.1, rollback := c.2.1.version, step := 3 } }).measure 2
    c.2.1.version 0 c.2.2

/-- Step 4: Dolam measured; its image is free (DESIGN CHOICE, log entry 7). -/
def State.startDolam (s : State) : State :=
  let s1 := s.measure 1 0 0 ((List.range 64).map (fun i => Config.freeByte (2 ^ 20 * s.fresh + i)))
  { s1.mint with mgmt := { s1.mgmt with step := 4 } }

/-- Step 5: memory is trained, and the registers that the record loads are loaded (R179, R372). -/
def State.loadRecord (s : State) : State :=
  let r := s.mgmt.record
  let s1 := (List.range 128).foldl (fun s i =>
    s.setReg (0x140000 + 8 * i) ((r.pins.getD (2 * i + 1) 0) ++ (r.pins.getD (2 * i) 0))) s
  let s2 := s1.setReg 0x20010 (BitVec.ofNat 64 r.pcap)
  { s2 with mgmt := { s2.mgmt with step := 5 } }

/-- Step 7: the presets are applied from OFF, the host port trains, and claims are accepted (R356, R367). -/
def State.applyPresets (s : State) : State :=
  let s1 := (List.range 32).foldl (fun s g =>
    let pre := s.mgmt.record.presets.getD g 0
    let v : Word := BitVec.ofNat 64 (2 ^ 63 + pre % 16 * 2 ^ 56 + 0xFFFF0000)
    let s0 := s.setReg (0x160000 + 8 * g) (capoFields v)
    if pre = 0 then s0 else s0.writeCapo g v) s
  { s1 with mgmt := { s1.mgmt with step := 7, hostUp := true } }

/-- The reset sequence (R367): `failing` is the step that fails, 0 for none. -/
def State.bringUp (s : State) (failing : Nat) : State :=
  let stop (s : State) : State := { s with mgmt := { s.mgmt with rstat := failing % 16, step := failing - 1 } }
  let s0 := s.cleared
  if failing = 1 || failing = 2 || failing = 3 then stop s0
  else
    match s0.chosen with
    | none => { s0 with mgmt := { s0.mgmt with rstat := 3, step := 2, recovery := true } }
    | some c =>
      let s3 := s0.takeRecord c
      if failing = 4 then stop s3
      else
        let s4 := s3.startDolam
        if failing = 5 then stop s4
        else
          let s5 := s4.loadRecord
          if failing = 6 then stop s5 else if failing = 7 then stop s5 else s5.applyPresets

/-- A package reset or a power-up (R367). -/
def execPackageReset (failing : Nat) (s : State) : Host.Outcome State Fault Refusal :=
  if failing ≤ 7 then .next (s.bringUp failing) else .next s

/-- RCTL written (R367). -/
def execRctlReset (w : Writer) (v : Word) (s : State) : Host.Outcome State Fault Refusal :=
  .next (s.served w (s.mayWriteBasic w) (fun s => if v = 0x52535400 then s.bringUp 0 else s))

/-! ## Clock (R369) -/

/-- The arithmetic clock steps down by 100 MHz, no lower than 1.2 GHz. -/
def execClockThrottleStep (s : State) : Host.Outcome State Fault Refusal :=
  .next { s with mgmt := { s.mgmt with clock := max 1200 (s.mgmt.clock - 100) } }

/-- The arithmetic clock steps back up, no higher than 2.7 GHz. -/
def execClockStepUp (s : State) : Host.Outcome State Fault Refusal :=
  .next { s with mgmt := { s.mgmt with clock := min 2700 (s.mgmt.clock + 100) } }

/-- A junction reaches 120 degrees: the package holds itself in reset. -/
def execOvertempReset (s : State) : Host.Outcome State Fault Refusal :=
  .next { s.cleared with mgmt := { s.cleared.mgmt with rstat := 15, overtemp := true } }

/-! ## Tables (R179, R181, R247, R268, R277, R281, R303, R313, R342) -/

/-- A root written by the management core where it keeps R181: the tenant's entries leave every translation cache (R186,
R188). -/
def execRootTableWrite (w : Writer) (tenant : Nat) (v : Word) (s : State) : Host.Outcome State Fault Refusal :=
  .next (s.served w (s.coreWrites w && tenant < 64 && (v == 0 || s.rootOk v.toNat)) (fun s =>
    (List.range 128).foldl (fun s p => s.dropEntries p (fun e => e.tenant == tenant)) (s.setReg (0x130000 + 8 * tenant) v)))

/-- The former contents of a slice page lost: what it reads when it is pinned again is free (R189, DESIGN CHOICE, log entry 5). The
full/empty bits of its lines, which R189 does not name, stay as they are (DESIGN CHOICE, log entry 54). -/
def State.losePage (s : State) (slice page : Nat) : State :=
  (s.store (0x10000000000 + 0x200000 * slice + 0x10000 * page)
    ((List.range 0x10000).map (fun i => Config.freeByte (2 ^ 20 * s.fresh + i)))).mint

/-- A pin mask written (R179): pages no longer pinned lose their contents, and lines cached in pages now pinned leave (R189). -/
def execPinMaskWrite (w : Writer) (slice : Nat) (v : BitVec 32) (s : State) : Host.Outcome State Fault Refusal :=
  .next (s.served w (s.coreWrites w && slice < 256) (fun s =>
    let off := 0x140000 + 8 * (slice / 2)
    let old := s.pins slice
    let stays (l : CacheLine) : Bool := !v.getLsbD (Config.slicePage old (Config.sliceSet old l.line) l.way % 32)
    let ls := Tab.getD s.slices slice []
    let s1 := ((List.range 32).filter (fun i => old.getLsbD i && !v.getLsbD i)).foldl (fun s i => s.losePage slice i) s
    let s2 := if ls.isEmpty then s1 else { s1 with slices := Tab.set s1.slices slice (ls.filter stays) }
    s2.setReg off (putBits (s2.reg off) (32 * (slice % 2)) 32 v.toNat)))

/-- A word of a class template as it is stored (R313). -/
def templateWord (off : Nat) (v : Word) : Word :=
  if off = 0 then
    BitVec.ofNat 64 (getBits v 62 2 * 2 ^ 62 + min 2 (getBits v 56 2) * 2 ^ 56 + min 23 (getBits v 32 5) * 2 ^ 32 +
      min 23 (getBits v 24 5) * 2 ^ 24)
  else if off = 8 then BitVec.ofNat 64 (getBits v 0 32)
  else v

/-- A class template written (R313). -/
def execClassTemplateWrite (w : Writer) (n off : Nat) (v : Word) (s : State) : Host.Outcome State Fault Refusal :=
  .next (s.served w (s.mayWrite w && n < 16 && off % 8 == 0 && off < 64) (fun s =>
    if off < 0x20 then s.setReg (0x120000 + 64 * n + off) (templateWord off v) else s))

/-- The participants that a group-table entry names (R247). -/
def State.participants (s : State) (die entry count : Nat) : List Nat :=
  (List.range count).map (fun p =>
    let o := groupBase die entry + 0x40 + 2 * p
    getBits (s.reg (o / 8 * 8)) (8 * (o % 8)) 12)

/-- A word of a group-table entry as it is stored (R247). -/
def groupWord (off : Nat) (v : Word) : Word :=
  if off = 0 then BitVec.ofNat 64 (getBits v 63 1 * 2 ^ 63 + getBits v 0 13)
  else if off < 0x40 then 0
  else v &&& 0x0FFF0FFF0FFF0FFF

/-- Whether a write that sets V of a group-table entry keeps R247. -/
def State.groupEntryOk (s : State) (die entry : Nat) (v : Word) : Bool :=
  let count := getBits v 0 13
  !v.getLsbD 63 || (1 ≤ count && count ≤ 4096 && (s.participants die entry count).Nodup)

/-- A collective group table written (R247). -/
def execGroupTableWrite (w : Writer) (die entry : Nat) (off : Nat) (v : Word) (s : State) :
    Host.Outcome State Fault Refusal :=
  let ok := s.coreWrites w && die < 4 && entry < 256 && off % 8 == 0 && off < 0x2040 &&
    (off != 0 || s.groupEntryOk die entry v)
  .next (s.served w ok (fun s => s.setReg (groupBase die entry + off) (groupWord off v)))

/-- The range of a window entry: base and bytes. -/
def windowRange (w : Word × Word) : Nat × Nat := (getBits w.1 30 22 * 2 ^ 30, getBits w.2 0 32 * 2 ^ 30)

/-- Whether two ranges overlap. -/
def rangesMeet (a b : Nat × Nat) : Bool := a.1 < b.1 + b.2 && b.1 < a.1 + a.2

/-- Whether a window entry may be staged (R342). -/
def State.stageOk (s : State) (n : Nat) (w : Word × Word) : Bool :=
  let r := windowRange w
  0x100000000000 ≤ r.1 && r.1 + r.2 ≤ 0x200000000000 && 1 ≤ getBits w.2 0 32 && getBits w.2 0 32 ≤ 16384 &&
    !(List.range 128).any (fun m =>
      let x := s.windowEntry m
      m != n && (x.1.getLsbD 63 || x.1.getLsbD 62) && rangesMeet r (windowRange x))

/-- A window entry written (R342): only Capo publishes. A write with V = 0 to a published entry, which R342 does not refuse, is
taken, and the window is published no more (DESIGN CHOICE, log entry 54). -/
def execWindowTableWrite (w : Writer) (n : Nat) (w0 w1 : Word) (s : State) : Host.Outcome State Fault Refusal :=
  let x : Word × Word := (w0 &&& 0x5F0FFFFFC0000000, w1 &&& 0xFFFFFFFF)
  let ok := s.coreWrites w && n < 128 && !w0.getLsbD 63 && (!w0.getLsbD 62 || s.stageOk n x)
  .next (s.served w ok (fun s => (s.setWindow n x).writeMirror))

/-- HXWIN written: the window ends, and a new one starts (R303). -/
def execHxwinWrite (w : Writer) (die : Nat) (v : Word) (s : State) : Host.Outcome State Fault Refusal :=
  .next (s.served w (s.mayWrite w && die < 4) (fun s =>
    let n := max (2 ^ 10) (min (2 ^ 32) (getBits v 0 33))
    (s.setReg (0x180000 + 0x1000 * die) (BitVec.ofNat 64 n)).setDie die { s.die die with hot := [], windowStart := s.cycle }))

/-- The bits of a region entry's words that have a meaning (R268). -/
def regionMask (i : Nat) : Word :=
  if i = 0 || i = 1 || i = 4 || i = 5 then 0x00FFFFFFFFFFFFFF
  else if i = 3 then 0x87FFFFFFFFFFFFFF
  else if i = 6 then 0xFFFF0FFFFFFFFFFF
  else if i = 7 then 0x000000FFFFFFFFFF
  else BitVec.allOnes 64

/-- Whether every field of a region entry is in range (R268). -/
def regionOk (w : Nat → Word) : Bool :=
  let hd := getBits (w 6) 48 16
  let dkv := getBits (w 6) 16 16
  let dm := getBits (w 6) 0 16
  getBits (w 0) 0 6 == 0 && getBits (w 1) 0 6 == 0 && getBits (w 2) 0 6 == 0 && getBits (w 2) 32 6 == 0 &&
    getBits (w 3) 54 5 ≤ 23 && 1 ≤ getBits (w 3) 40 8 && getBits (w 3) 32 8 + getBits (w 3) 40 8 ≤ 64 &&
    2 ≤ hd && hd ≤ 256 && hd % 2 == 0 && dkv % hd == 0 && [1, 2, 4, 7, 22].contains (getBits (w 6) 38 6) &&
    [1, 2, 4, 7, 31].contains (getBits (w 6) 32 6) && dkv % 64 == 0 && 64 ≤ dkv && dkv ≤ 4096 && dm % 32 == 0 && 32 ≤ dm &&
    dm ≤ 16384 && (getBits (w 7) 34 6 == 1 || getBits (w 7) 34 6 == 31) && getBits (w 6) 44 4 == 0 &&
    (List.range 8).all (fun i => (w i &&& ~~~(regionMask i)) == 0)

/-- A region entry written; one with a field out of range has V = 0 (R268). -/
def execGleanerRegionWrite (w : Writer) (n : Nat) (words : List Word) (s : State) : Host.Outcome State Fault Refusal :=
  let x (i : Nat) : Word := words.getD i 0
  let y (i : Nat) : Word := if i = 3 && !regionOk x then putBit (x i) 63 false else x i
  .next (s.served w (s.mayWrite w && n < 32) (fun s =>
    (List.range 8).foldl (fun s i => s.setReg (0x400000 + 64 * n + 8 * i) (y i &&& regionMask i)) s))

/-- A routing-directory entry written in one action (R281). -/
def execRoutingDirectoryWrite (w : Writer) (n : Nat) (w0 w1 : Word) (s : State) : Host.Outcome State Fault Refusal :=
  .next (s.served w (s.mayWrite w && n < 64) (fun s =>
    (s.setReg (0x420000 + 16 * n) (w0 &&& 0x800FFFFFFFFFFFF0)).setReg (0x420008 + 16 * n) (w1 &&& 0xFFFFFFFF00001FFF)))

/-- Whether a port's line lies in local HBM4E, a chip slice or a scratchpad (R277). -/
def portLineOk (w0 : Word) : Bool :=
  match rangeOf (getBits w0 6 46 * 64) with
  | .hbm | .slice _ | .scratch _ => true
  | _ => false

/-- An acceptance port written (R277). -/
def execAcceptancePortWrite (w : Writer) (die port : Nat) (w0 w1 : Word) (s : State) : Host.Outcome State Fault Refusal :=
  let ok := s.mayWrite w && die < 4 && port < 16 && (!w0.getLsbD 63 || portLineOk w0)
  let off := 0x410000 + 0x1000 * die + 16 * port
  .next (s.served w ok (fun s => (s.setReg off (w0 &&& 0x800FFFFFFFFFFFC0)).setReg (off + 8) (w1 &&& 0x3F)))

/-- The offsets of error records (R371). -/
def recordAt (off : Nat) : Bool := 0x500000 ≤ off && off < 0x500800 && off % 32 == 0 &&
  (off < 0x500080 || (0x500100 ≤ off && off < 0x500180) || (0x500200 ≤ off && off < 0x500280) || 0x500400 ≤ off)

/-- A word of an error record written: a 1 to V clears the record, every other value is ignored (R371). -/
def execErrorRecordClear (w : Writer) (off : Nat) (v : Word) (s : State) : Host.Outcome State Fault Refusal :=
  .next (s.served w (s.mayWrite w && off % 8 == 0 && recordAt (off / 32 * 32)) (fun s =>
    if off % 32 = 0 && v.getLsbD 63 then (s.setReg off 0).setReg (off + 8) 0 else s))

/-- A flush by the management core (R180): the lines in slice pages go, page `p` of slice `n` under the number 32 n + p; of a
partition, those in the ways of its tenant. -/
def execManagementFlush (pages : List Nat) (tenant : Option Nat) (s : State) : Host.Outcome State Fault Refusal :=
  let keep (n : Nat) (l : CacheLine) : Bool :=
    let pins := s.pins n
    !pages.contains (32 * n + Config.slicePage pins (Config.sliceSet pins l.line) l.way % 32) ||
      tenant.any (fun t => !(s.partition (n / 64) (t % 64)).getLsbD l.way)
  if !s.running then .next s
  else .next { s with slices := Tab.mapVal s.slices (fun n ls => ls.filter (keep n)) }

/-! ## Management registers as words (R370) -/

/-- CFGBUF written by an aligned 8-byte write (R366). -/
def State.writeCfgbuf (s : State) (off : Nat) (v : Word) : State :=
  let bs := toLe 8 v.toNat
  { s with mgmt := { s.mgmt with
    cfgbuf := (bs.zipIdx).foldl (fun t b => Tab.set t (off - 0x28000 + b.2) b.1) s.mgmt.cfgbuf } }

/-- The kinds of plain registers: their offsets and the value that a write stores; none where it is refused. -/
def plainValue (off : Nat) (v : Word) : Option Word :=
  if off % 8 ≠ 0 then none
  else if off = 0x20010 then (if 800 ≤ v.toNat && v.toNat ≤ 3200 then some v else none)
  else if off = 0x21000 then some v
  else if off = 0x160100 then some v
  else if 0x160200 ≤ off && off < 0x160280 then some v
  else if 0x180000 ≤ off && off < 0x184000 && off % 0x1000 = 8 then some (v &&& 0xFFFF)
  else if 0x200000 ≤ off && off < 0x210000 then some v
  else none

/-- A counter of a die or of a plot written (R286). -/
def State.writeCounter (s : State) (off : Nat) (v : Word) : Option State :=
  if 0x190000 ≤ off && off < 0x190400 && off % 0x100 < 40 && off % 8 = 0 then
    let d := (off - 0x190000) / 0x100
    some (s.setDie d { s.die d with counters := (s.die d).counters.setIfInBounds (off % 0x100 / 8) v })
  else if 0x1A0000 ≤ off && off < 0x1A2000 && off % 0x40 < 40 && off % 8 = 0 then
    let p := (off - 0x1A0000) / 0x40
    some (s.setPlot p { s.plot p with counters := (s.plot p).counters.setIfInBounds (off % 0x40 / 8) v })
  else none

/-- Whether a register is one that recovery serves (R365, R366). -/
def basicReg (off : Nat) : Bool := off == 0x10000 || off == 0x21000 || (0x28000 ≤ off && off < 0x30000)

/-- A write of one register of 8 bytes: HOSTDATA by the owner (R360), CFGBUF, CAPOREQ, a loader's image address, the
counters, and the registers that hold plain data. -/
def State.writeMgmt (s : State) (w : Writer) (off : Nat) (v : Word) : State :=
  let ok := s.mayWrite w || (basicReg off && s.mayWriteBasic w)
  if off % 8 ≠ 0 || !ok then s.refuse w
  else if off = 0x10000 then (if w = .core then s else s.setOwn (putBit s.mgmt.own 8 (v.getLsbD 8)))
  else if 0x28000 ≤ off && off < 0x30000 then s.writeCfgbuf off v
  else if 0x141000 ≤ off && off < 0x141200 then (if s.coreWrites w then s.setReg off v else s.refuse w)
  else if 0x160000 ≤ off && off < 0x160100 then s.writeCapo ((off - 0x160000) / 8) v
  else if off = 0x160300 then (s.setReg off v).placeStatus
  else if 0x300000 ≤ off && off < 0x380000 && off % 0x1000 = 0 then
    let p := (off - 0x300000) / 0x1000
    s.setPlot p { s.plot p with loader := { (s.plot p).loader with image := v } }
  else
    match s.writeCounter off v, plainValue off v with
    | some s1, _ => s1
    | none, some x => s.setReg off x
    | none, none => s.refuse w

/-- The registers whose writes are events of their own. -/
def ownEvent (off : Nat) : Bool :=
  (0x100000 ≤ off && off < 0x120400) || (0x130000 ≤ off && off < 0x130200) || (0x140000 ≤ off && off < 0x140400) ||
    (0x150000 ≤ off && off < 0x150800) || (0x180000 ≤ off && off < 0x184000 && off % 0x1000 == 0) ||
    (0x400000 ≤ off && off < 0x420400) || (0x500000 ≤ off && off < 0x500800) || (0x1000000 ≤ off && off < 0x2000000)

/-- One word of a register whose write is an event of its own, with the other words of its entry as they stand. -/
def State.writeEntry (s : State) (w : Writer) (off : Nat) (v : Word) : Host.Outcome State Fault Refusal :=
  let two (base : Nat) : Word × Word :=
    if off % 16 = 0 then (v, s.reg (base + 8)) else (s.reg base, v)
  if off < 0x120000 then
    let n := (off - 0x100000) / 128
    execSlotTableWrite w n ((s.slot n).words.toList.set (off % 128 / 8) v) s
  else if off < 0x130000 then execClassTemplateWrite w ((off - 0x120000) / 64) (off % 64) v s
  else if off < 0x140000 then execRootTableWrite w ((off - 0x130000) / 8) v s
  else if off < 0x150000 then
    let n := 2 * ((off - 0x140000) / 8)
    match execPinMaskWrite w n (v.setWidth 32) s with
    | .next s1 => if s.coreWrites w then execPinMaskWrite w (n + 1) (v.extractLsb' 32 32) s1 else .next s1
    | o => o
  else if off < 0x180000 then
    let x := two (off / 16 * 16)
    execWindowTableWrite w ((off - 0x150000) / 16) x.1 x.2 s
  else if off < 0x400000 then execHxwinWrite w ((off - 0x180000) / 0x1000) v s
  else if off < 0x410000 then
    let n := (off - 0x400000) / 64
    execGleanerRegionWrite w n ((List.range 8).map (fun i => if i = off % 64 / 8 then v else s.regionWord n i)) s
  else if off < 0x420000 then
    let x := two (off / 16 * 16)
    execAcceptancePortWrite w ((off - 0x410000) / 0x1000) (off % 0x1000 / 16) x.1 x.2 s
  else if off < 0x500000 then
    let x := two (off / 16 * 16)
    execRoutingDirectoryWrite w ((off - 0x420000) / 16) x.1 x.2 s
  else if off < 0x1000000 then execErrorRecordClear w off v s
  else
    let o := off - 0x1000000
    execGroupTableWrite w (o / 0x400000) (o % 0x400000 / 0x4000) (o % 0x4000) v s

/-- OWNCLAIM written: a command of a master, every other value refused (R361). The management core is no master. -/
def State.writeClaim (s : State) (w : Writer) (v : Word) : Host.Outcome State Fault Refusal :=
  match w with
  | .core => .next s
  | .master m =>
    let n := getBits v 0 3
    if n = 1 then execOwnclaimClaim m s
    else if n = 2 then execOwnclaimHandover m (v.extractLsb' 4 2) s
    else if n = 3 then execOwnclaimAccept m s
    else if n = 4 then execOwnclaimRelease m s
    else .next (s.claimed m false id)

/-- The heartbeat register written: no master's write of it is refused (R362), and the register is then no longer unwritten
(R361). The management core is no master. -/
def State.writeHeartbeat (s : State) (w : Writer) (v : Word) : Host.Outcome State Fault Refusal :=
  match w with
  | .core => .next s
  | .master m => if s.reaches m then execHeartbeatWrite v s else .next s

/-- A management register written, 8 bytes (R362, R370). -/
def execMgmtRegisterWrite (w : Writer) (off : Nat) (v : Word) (s : State) : Host.Outcome State Fault Refusal :=
  if off % 8 = 0 && ownEvent off then s.writeEntry w off v
  else if off = 0x10008 then s.writeClaim w v
  else if off = 0x10010 then s.writeHeartbeat w v
  else if off = 0x20008 then execRctlReset w v s
  else if off = 0x21008 then execCfgcmdStore w v s
  else if 0x300000 ≤ off && off < 0x380000 && off % 0x1000 = 8 then
    (if v.getLsbD 0 then execLoaderGo w ((off - 0x300000) / 0x1000) s else .next (s.served w (s.mayWrite w) id))
  else .next (s.writeMgmt w off v)

/-! ## The host port and the management core (R221, R359) -/

/-- Whether bytes exist at an address of the local map: none lies in a hole or in a slice page that is not pinned (R171, R172). -/
def State.bytesExist (s : State) (addr len : Nat) : Bool := (List.range len).all (fun i => s.addressable (addr + i))

/-- Whether a write of the host port is served (R362). -/
def State.hostServed (s : State) : Bool := s.owner == 2 || s.hostData

/-- An access of the host port through BAR2 (R359): served as a HOME 0b11 access; it leaves the full/empty bits. Where no memory
exists it is refused as a peer's would be (R354; DESIGN CHOICE, log entry 43). -/
def execHostBar2Access (addr : Nat) (data : Option (List Byte)) (len : Nat) (s : State) : Host.Outcome State Fault Refusal :=
  if !s.mgmt.hostUp || 0x18000000000 < addr + len then .next s
  else
    let look (s : State) : State := s.touch [⟨addr, len, false, noAlloc⟩]
    match data with
    | none => .next (if s.bytesExist addr len then look s else s)
    | some bs =>
      if bs.length ≠ len then .next s
      else if s.hostServed && s.bytesExist addr len then .next (look (s.store addr bs))
      else .next (s.refuse (.master .host))

/-- A write of the host port through BAR4 (R359): 8 aligned bytes, written with their line set full in one action; every
other write is refused. -/
def execHostBar4Fill (addr : Nat) (data : List Byte) (s : State) : Host.Outcome State Fault Refusal :=
  if !s.mgmt.hostUp || 0x18000000000 < addr + data.length then .next s
  else if data.length ≠ 8 || addr % 8 ≠ 0 || !s.hostServed || !s.bytesExist addr 8 then .next (s.refuse (.master .host))
  else .next (((s.store addr data).setFull addr).touch [⟨addr, 8, false, noAlloc⟩])

/-- A read of the management core in one line behind the fabric: it goes, is held or fails as a task's request does, with the log
alone to tell (R346, R348, R354). -/
def State.coreAsk (s : State) (p : Piece) : State :=
  match s.pathTo p.pa with
  | .error c => s.lostReq .posted s.fresh 0 p.pa (s.recordGroup p.pa) c
  | .ok (g, held) => s.request .posted 0 p.pa (.read p.len) noAlloc g held

/-- An access of the management core at a physical address (R221): always served. Behind the fabric it is requests of a line each,
within the 256 bytes of R340; where no memory exists it has no effect (DESIGN CHOICE, log entry 43). -/
def execManagementCoreAccess (addr : Nat) (data : Option (List Byte)) (len : Nat) (s : State) :
    Host.Outcome State Fault Refusal :=
  let a := s.localAddr addr
  if !s.running || data.any (fun bs => bs.length != len) then .next s
  else
    match rangeOf a, data with
    | .mgmt, some bs =>
      if len = 8 then execMgmtRegisterWrite .core (a - 0x18000000000) (BitVec.ofNat 64 (leNat bs)) s else .next s
    | .mgmt, none => .next s
    | _, _ =>
      let p : Piece := ⟨a, len, false, noAlloc⟩
      if !(s.needsFabric a || s.bytesExist a len) then .next s
      else
        match data with
        | some bs => .next (s.writePieces .posted 0 [p] bs)
        | none => .next (if s.far p then (lineParts p).foldl State.coreAsk s else s.touch [p])

/-! ## Reading the management registers -/

/-- A word of a list of bytes. -/
def listWord (bs : List Byte) (off : Nat) : Word := wordAt bs off

/-- The bytes of a log entry (R364). -/
def LogEntry.bytes (e : LogEntry) : List Byte :=
  toLe 4 e.kind ++ toLe 4 e.ver ++ toLe 4 e.subj ++ List.replicate 52 0 ++ e.digest

/-- The doubleword at an offset of the management registers (R370): what a read there returns. The identity block but for
the nonce and the quote, and the temperatures, whose places R370 does not give, are free (DESIGN CHOICE, log entry 7). -/
def State.readMgmt (s : State) (off : Nat) : Word :=
  let m := s.mgmt
  if m.recovery && !(off < 0x20000 || off == 0x20000 || (0x21000 ≤ off && off < 0x30000) || (0x40000 ≤ off && off < 0x60000)) then 0
  else if off = 0x308 then BitVec.ofNat 64 m.logCount
  else if off = 0x300 then (if m.quoteValid then 1 else 0)
  else if 0x100 ≤ off && off < 0x140 then listWord m.nonce (off - 0x100)
  else if 0x200 ≤ off && off < 0x288 then listWord m.quote (off - 0x200)
  else if off < 0x10000 then Config.freeWord (2 ^ 61 + off)
  else if off = 0x10000 then m.own
  else if off = 0x10010 then m.heartbeat
  else if off = 0x20000 then BitVec.ofNat 64 m.rstat
  else if 0x20018 ≤ off && off < 0x21000 then Config.freeWord (2 ^ 62 + 2 ^ 13 * s.cycle + off % 2 ^ 13)
  else if off = 0x21010 then BitVec.ofNat 64 m.cfgstat
  else if 0x40000 ≤ off && off < 0x60000 then
    (m.log[(off - 0x40000) / 128]?).elim 0 (fun e => listWord e.bytes (off % 128))
  else if 0x100000 ≤ off && off < 0x120000 then (s.slot ((off - 0x100000) / 128)).words.getD (off % 128 / 8) 0
  else if 0x160000 ≤ off && off < 0x160100 then s.readCapo ((off - 0x160000) / 8)
  else if 0x190000 ≤ off && off < 0x190400 && off % 0x100 < 40 then
    (s.die ((off - 0x190000) / 0x100)).counters.getD (off % 0x100 / 8) 0
  else if 0x1A0000 ≤ off && off < 0x1A2000 && off % 0x40 < 40 then
    (s.plot ((off - 0x1A0000) / 0x40)).counters.getD (off % 0x40 / 8) 0
  else if 0x300000 ≤ off && off < 0x380000 then
    let l := (s.plot ((off - 0x300000) / 0x1000)).loader
    if off % 0x1000 = 0 then l.image else if off % 0x1000 = 0x10 then l.status else 0
  else s.reg off

end Sys2Proof.Machine
end

