-- ==== Sys2Proof/Machine/Traps.lean ====
section
/-! DEFINITION. The trap-class instructions (R333), the yield (R87, R89, R168, R230, R291), the save area and the resumption
(R27, R177, R292, R293, R335, R381, R406, R407). -/

namespace Sys2Proof.Machine

/-! ## trap, rett, yield, synct (R333) -/

/-- `trap` (R333): the bundle commits whole, then the handler is entered. -/
def execTrap (x : Syl) (s : State) : Host.Outcome State Fault Refusal :=
  run .C 0x028 x plain (fun g s =>
    .ok { s with stage := { s.stage with trapAfter := some (BitVec.ofNat 64 (getBits g.e.w 0 56)) } }) s

/-- Whether every load and every paired store that a handler pushed has performed at task scope. -/
def Queues.handlerDone (q : Queues) : Bool :=
  q.loads.all (fun a => match a.kind with | .marker _ => true | _ => false) && !q.pairWaits

/-- The wait of `rett`: it writes s48 to s53, and so waits for their outstanding producers (R80). -/
def waitRett (_ : Args) (s : State) : Option Stop :=
  if s.cur.flow.inHandler then ([48, 49, 50, 51, 52, 53].find? s.cur.pending).map (fun n => .block (.reg n)) else none

/-- `rett` (R333): it waits on the issue stage; the restore follows at the bundle's end. -/
def execRett (x : Syl) (s : State) : Host.Outcome State Fault Refusal :=
  runWait .C 0x029 x waitRett plain (fun _ s =>
    if !s.cur.flow.inHandler then .error (.fault 5 none)
    else if !s.cur.q.handlerDone then .error .suspend
    else .ok { s with stage := { s.stage with returning := true, extra := s.stage.extra + 3 } }) s

/-- `yield` (R333). -/
def execYield (x : Syl) (s : State) : Host.Outcome State Fault Refusal :=
  run .C 0x02A x plain (fun _ s => .ok (s.onCur (fun t => t.onTsw (fun w => putBit w 6 true)))) s

/-- The typical latency of a load to a home (R175, DESIGN CHOICE, log entry 2). -/
def State.latency (s : State) (t : Task) (pa : Nat) : Nat :=
  match rangeOf (s.localAddr pa) with
  | .scratch n => if n = t.tiller then 9 else if n / 4 = t.plot then 24 else if n / 128 = t.die then 60 else 200
  | .slice n => if n / 64 = t.die then 80 else 200
  | .hbm =>
    if (Tab.getD s.slices (s.cacheSlice pa) []).any (fun l => l.line == pa / 64) then (if s.homeDie pa = t.die then 80 else 200)
    else 810
  | _ => 2030

/-- The full/empty bit of a line; of another package's a free value (DESIGN CHOICE, log entry 21). -/
def State.lineFull (s : State) (pa : Nat) : Bool :=
  if s.isRemote pa then (Config.freeWord s.fresh).getLsbD 0 else s.full pa

/-- `synct` (R333). -/
def execSynct (x : Syl) (s : State) : Host.Outcome State Fault Refusal :=
  runWait .C 0x02B x waitTrans (fun _ _ => memCost 1) (fun g s =>
    match s.checkedSync .read g.b.w 8 8 with
    | .error e => .error e
    | .ok r =>
      let pa := r.tgt.addr
      let p : Piece := ⟨pa, 8, true, noAlloc⟩
      if s.holds s.stage.uid s.cur.q.seq (pa / 64) then .error .suspend
      else if s.heldPiece p then .error (.held g.b.w [p])
      else
        match s.lostPiece [] [p] with
        | some (_, cause) =>
          .ok (((((s.faultRecord s.stage.uid g.b.w pa (s.recordGroup pa) cause).ungone pa).putP x.a 1
            ((Config.freeWord s.fresh).getLsbD 0)).mint).keepStage (s.latency s.cur pa))
        | none =>
          let s1 := (s.putP x.a 1 (s.lineFull pa)).keepStage (s.latency s.cur pa)
          .ok ((if s.isRemote pa then s1.mint else s1).resolved s.stage.uid r)) s

/-! ## Continuation records (R381) -/

/-- The continuation record of a bundle address in a plane: its four words. -/
def Plane.contRecord (p : Plane) (pc : Nat) : Option (Word × Word × Word) :=
  let base := getBits (p.word 8) 0 56
  let off := getBits (p.word 0x18) 0 15
  if !p.valid || pc < base || base + 0x40000 ≤ pc then none
  else
    ((List.range (getBits (p.word 0x18) 32 16)).map (fun i => 0x44000 + off + 32 * i)).findSome? (fun a =>
      if getBits (p.word a) 0 18 = pc - base then some (p.word a, p.word (a + 8), p.word (a + 16)) else none)

/-- A task reaches the boundary after a yield-point bundle at `at_` with YPEND set: it waits in the issue stage for the
conditions of R291, and goes on at `next`. -/
def State.quiesce (s : State) (uid : Nat) (at_ next : Word) : State :=
  match s.task? uid with
  | none => s
  | some t =>
    let tiles := 2 ^ t.job.tiles.length - 1
    let job : Job := match (s.plot t.plot).active.contRecord at_.toNat with
      | none => { t.job with slive := BitVec.allOnes 64, vlive := BitVec.allOnes 64, alive := tiles, qlive := t.q.ldata.length }
      | some (w, sl, vl) =>
        { t.job with slive := sl, vlive := vl, alive := getBits w 18 16 &&& tiles, qlive := getBits w 34 6 }
    s.setTask uid { t with phase := .quiescing, pc := next, job := job }

/-! ## The yield (R291) -/

/-- Whether a producer must land before a yield (R89, R167). -/
def Producer.mustLand (p : Producer) : Bool := p.kind == .divider || p.kind == .amove || p.elem.isSome

/-- The conditions of a yield: the bundle before it has had its cycles, Acre-quiet, producers settled, the kept load data
performed, the store buffer and the output
streams drained (R230, R291, R381). -/
def State.yieldReady (s : State) (uid : Nat) (t : Task) : Bool :=
  let kept := t.q.ldata.take t.job.qlive
  (s.tiller t.tiller).freeAt ≤ s.cycle && s.acreOutstanding uid == 0 &&
    !t.flow.producers.any Producer.mustLand && kept.all (fun e => e.data.isSome) &&
    !t.q.pairWaits && !t.q.stores.any (fun e => match e with | .marker .. => true | _ => false) && t.q.buffer.isEmpty &&
    !t.q.streams.any (fun e => e.2.out && !e.2.buf.isEmpty)

/-- The command error that a yield saves with a task: an earlier one, or that of an entry which the table has yet to free
(R164, R168). -/
def Plot.savedErr (p : Plot) (uid : Nat) (t : Task) : Option CmdErr :=
  match t.job.acreErr with
  | some e => some e
  | none => p.leases.findSome? (fun e => if e.2.holder.is uid then e.2.err else none)

/-- The lease of a task saved at a yield, and its requests withdrawn; the token register keeps what R89 states. -/
def State.saveLease (s : State) (uid : Nat) : State :=
  match s.task? uid with
  | none => s
  | some t =>
    let p := s.plot t.plot
    let granted := (p.leaseOf uid).isSome
    let kept := (p.leaseOf uid).map (fun l => (l.2.ops, p.savedErr uid t))
    let tokens := (t.flow.producers.filter (fun q => q.kind == .alease)).map (·.id)
    let p' := { p with
      leases := p.leases.filter (fun e => !e.2.holder.is uid)
      waiting := p.waiting.filter (fun r => !r.holder.is uid) }
    let t1 := tokens.foldl (fun (t : Task) id => t.fill id (vec (if granted then leaseToken else 0)) 0) t
    let t2 : Task := { t1 with job := { t1.job with
      lease := kept
      acreErr := if granted then none else p.savedErr uid t } }
    ((s.setPlot t.plot p').setTask uid t2).grantNext t.plot

/-- Latches that a save keeps: results for registers (R406). -/
def Dest.saved : Dest → Bool
  | .s _ | .v _ | .p _ | .k _ => true
  | _ => false

/-- Input streams lose what they read ahead (R230). -/
def Stream.rewound (st : Stream) : Stream := if st.out then st else { st with buf := [], moved := st.next }

/-- The queues as a yield leaves them: the kept load data, loads into registers, bindings (R89, R230, R381). -/
def Queues.yielded (q : Queues) (n : Nat) : Queues :=
  { q with
    loads := q.loads.filter LoadAcc.fills
    ldata := q.ldata.take n
    stores := []
    sdata := []
    streams := Tab.mapVal q.streams (fun _ st => st.rewound)
    parked := q.parked.filter (fun e => e.1 < 2 ^ 60) }

/-- The yield is taken: YPEND clears, results in flight enter the latches, the lease is saved, and the image is written
(R168, R291, R331). -/
def execYieldTaken (c : Nat) (s : State) : Host.Outcome State Fault Refusal :=
  match s.task? c with
  | none => .next s
  | some t =>
    if t.phase != .quiescing || !s.yieldReady c t then .next s
    else
      let s1 := (s.setTask c ((t.freeze s.cycle).onTsw (fun w => putBit w 6 false))).saveLease c
      .next (s1.onTask c (fun t =>
        let ls := t.flow.latches.filter (fun l => l.dest.saved)
        { t with
          phase := .saving
          q := t.q.yielded t.job.qlive
          csr := { t.csr with tsw := putBit t.csr.tsw 10 (!ls.isEmpty) }
          flow := { t.flow with latches := ls, resume := 0, again := false }
          job := t.job.bump 5 1 }))

/-! ## The save area (R335, R406, R407) -/

/-- The bits of a control register that an image may set. -/
def csrMask (n : Nat) : Word :=
  if n = 0 then 0xFFFF
  else if n = 1 || n = 4 || n = 5 || (8 ≤ n && n ≤ 0xB) || n = 0x19 then 0xFFFFFFFF
  else if n = 2 || n = 3 then 0xFFFFFFFFFFFF
  else if n = 6 then 0x7FF
  else if n = 0x10 || n = 0x11 then 0xFFFC0
  else if n = 0x12 then 0xFFFFFFFFFFFFC0
  else if n = 0x18 then 0xFFF
  else if n = 0x1A then 0xFFFFFFFFFF1FFFFF
  else if n = 0x1B then 0x3F
  else if n = 0x1C then 0x80FFFFFFFFFFFFFF
  else if n = 0x20 then 0xFFFFFFFFFFFFFF
  else BitVec.allOnes 64

/-- A latch in the save area (R406). -/
def latchWords (l : Landing) : List Byte :=
  let h (kind reg tag : Nat) (d : List Byte) : List Byte :=
    toLe 8 (2 ^ 63 + kind * 2 ^ 56 + tag * 2 ^ 48 + reg * 2 ^ 32 + l.due % 65536) ++ toLe 8 0 ++ d
  match l.dest with
  | .s n => h 0 n 0 (toLe 128 (low l.data).toNat)
  | .v n => h 1 n l.tag.toNat (toLe 128 l.data.toNat)
  | .p n => h 2 n 0 (toLe 128 (l.data.toNat % 2))
  | .k n => h 3 n 0 (toLe 128 (l.data.toNat % 2 ^ 128))
  | _ => []

/-- The lease state in the save area (R407): of a task without a lease, a pending error alone. -/
def leaseWords (l : Option (OperandState × Option CmdErr)) (err : Option CmdErr) : List Byte :=
  let o : OperandState := l.elim OperandState.zero (·.1)
  let e : Option CmdErr := l.elim err (·.2)
  let b (x : Bool) (i : Nat) : Nat := if x then 2 ^ i else 0
  let w0 := b l.isSome 63 + b o.av 62 + b o.bv 61 + b o.sv 60 + b e.isSome 59 + o.koff % 2 ^ 24
  let ws : List Nat := [w0, o.aword.toNat, o.alist.toNat, o.ad, o.bbase.toNat, o.bstride, o.bd, o.sabase.toNat,
    o.sbbase.toNat, o.sstrides, e.elim 0 (fun e => getBits e.addr 0 56), e.elim 0 (fun e => e.syl.toNat)]
  ws.flatMap (toLe 8) ++ List.replicate 0xA0 0

/-- A stream binding in the save area: 64 bytes (R230, R335; the places inside are the model's, DESIGN CHOICE, log entry 10). -/
def Stream.words (b : Stream) : List Byte :=
  let flags := 2 ^ 63 + (if b.out then 1 else 0) + (if b.vec then 2 else 0) + 256 * (b.es % 256) + 65536 * (b.hint % 4)
  let twos (i : Int) : Nat := (BitVec.ofInt 64 i).toNat
  padTo 64 ([flags, b.base.toNat, twos b.stride1, twos b.stride2, b.count1 + 2 ^ 32 * b.count2, b.next, b.after].flatMap (toLe 8))

/-- A sheaf-window descriptor in the save area: 32 bytes (R187, R335; DESIGN CHOICE, log entry 10). -/
def Window.words (w : Window) : List Byte :=
  padTo 32 ([2 ^ 63 + (if w.scatter then 1 else 0) + 256 * w.log2z, w.base.toNat, w.index.toNat, w.count].flatMap (toLe 8))

/-- The bindings of a task in the save area, 0x1180 to 0x157F. -/
def Queues.bindingWords (q : Queues) : List Byte :=
  padTo 0x200 ((List.range 8).flatMap (fun i => (Tab.get? q.streams i).elim (List.replicate 64 0) Stream.words)) ++
    padTo 0x200 (q.windows.flatMap (fun e => e.2.words))

/-- An outstanding producer in the save area (R407): `ldr` with the access sequence of its load, or `sample`. -/
def producerWords (q : Queues) (p : Producer) : List Byte :=
  let kind := if p.kind = .ldr then 1 else 2
  let seq := (q.loads.find? (fun a => match a.kind with | .reg id .. => id == p.id | _ => false)).elim 0 LoadAcc.seq
  toLe 8 (2 ^ 63 + kind * 2 ^ 60 + p.reg) ++ toLe 8 (if p.kind = .ldr then seq % 2 ^ 48 else 0)

/-- The tag of tile `i` of a task. -/
def State.tileTag (s : State) (t : Task) (i : Nat) : Nat :=
  (Tab.getD (s.plot t.plot).tiles (t.job.tiles.getD i 0) Tile.zero).tag

/-- The registers of outstanding `ldr` and `sample` producers, as a mask over the s (`base` 0) or v (`base` 64) file. -/
def Task.awaitedMask (t : Task) (base : Nat) : Word :=
  (t.flow.producers.filter (fun p => base ≤ p.reg && p.reg < base + 64)).foldl
    (fun w p => w ||| BitVec.ofNat 64 (2 ^ (p.reg - base))) 0

/-- The control part of a save image, 0x0000 to 0x187F (R335). -/
def State.imageHead (s : State) (t : Task) : List Byte :=
  let sl := t.job.slive ||| t.awaitedMask 0
  let vl := t.job.vlive ||| t.awaitedMask 64
  let w (l : List Nat) : List Byte := l.flatMap (toLe 8)
  let ns := List.range t.job.tiles.length
  let tags := ns.map (fun i => if t.job.alive.testBit i then BitVec.ofNat 8 (s.tileTag t i) else 31)
  let live := t.job.alive % 2 ^ 16 + (if t.flow.inHandler then 2 ^ 16 else 0) + (if t.flow.range.valid then 2 ^ 17 else 0)
  w [(saveHead 1 t).toNat, t.job.ob.toNat, 0, sl.toNat, vl.toNat, live, t.pc.toNat % 2 ^ 56, t.q.seq % 2 ^ 48] ++
    w ((List.range 0x22).map (fun n => (t.csr.get n).toNat)) ++ w (t.flow.loopStart.toList.map BitVec.toNat) ++
    w [(t.regs.p ||| 1).toNat, (t.regs.fes ||| ~~~sl).toNat, (t.regs.fev ||| ~~~vl).toNat, 2 ^ ns.length - 1] ++
    tags ++ List.replicate (0x30 - ns.length) 0 ++
    (List.range 64).map (fun i => if vl.getLsbD i then (t.regs.getVt i).setWidth 8 else 0) ++
    (List.range 8).flatMap (fun n => toLe 16 (t.regs.getK n).toNat) ++
    t.flow.hold.toList.flatMap (fun h => toLe 8 h.word.toNat ++ toLe 8 h.valid.toNat) ++
    padTo 0xD80 (t.flow.latches.flatMap latchWords) ++ t.flow.range.words ++ t.q.bindingWords ++
    leaseWords t.job.lease t.job.acreErr ++ padTo 0x200 (t.flow.producers.flatMap (producerWords t.q))

/-- The live registers of a file written from an address. -/
def State.saveRegs (s : State) (a size : Nat) (live : Word) (v : Nat → Nat) : State :=
  (List.range 64).foldl (fun s i => if live.getLsbD i then s.store (a + size * i) (toLe size (v i)) else s) s

/-- The live tiles of a task, by rising number. -/
def Task.liveTiles (t : Task) : List Nat := (List.range t.job.tiles.length).filter (fun i => t.job.alive.testBit i)

/-- A tile written at an address: 128 KiB (R335). -/
def State.saveTile (s : State) (a : Nat) (x : Tile) : State :=
  x.cells.foldl (fun s c => s.store (a + 4 * c.1) (toLe 4 c.2.toNat)) { s with mem := Memory.clear s.mem a 0x20000 }

/-- A tile read back. -/
def State.loadTile (s : State) (a tag : Nat) : Tile where
  tag := tag
  cells := (s.mem.filter (fun c => a ≤ c.1 && c.1 < a + 0x20000)).foldl (fun t c =>
    let i := (c.1 - a) / 4
    Tab.set t i (Tab.getD t i 0 ||| BitVec.ofNat 32 (c.2.toNat * 256 ^ ((c.1 - a) % 4)))) []

/-- The carve-out of a task: physical base and bytes. -/
def Task.carveOut (t : Task) : Nat × Nat :=
  (scratchBase t.tiller + 64 * getBits t.csr.spillbase 6 14, 64 * getBits t.csr.spillsize 6 14)

/-- Whether a task is the only one of its gang, so that a yield frees its context (R14, R27). -/
def State.single (s : State) (t : Task) : Bool := (s.slot t.job.slot).size == 1

/-- The image of a task in its save regions (R177, R335). -/
def State.writeImage (s : State) (t : Task) : State :=
  let a := s.saveBase t.no
  let e := s.extBase t.no
  let sl := t.job.slive ||| t.awaitedMask 0
  let vl := t.job.vlive ||| t.awaitedMask 64
  let s1 := (s.store a (s.imageHead t)).store (a + 0x3A80) (List.replicate 0x180 0 ++ queueWords t.q.ldata [] [] [])
  let s2 := (s1.saveRegs (a + 0x1880) 8 sl (fun i => (t.regs.getS i).toNat)).saveRegs (a + 0x1A80) 128 vl
    (fun i => (t.regs.getV i).toNat)
  let s3 := t.liveTiles.zipIdx.foldl (fun s i =>
    s.saveTile (e + 0x20000 * i.2) (Tab.getD (s.plot t.plot).tiles (t.job.tiles.getD i.1 0) Tile.zero)) s2
  let s4 := if s3.single t then
      s3.store (e + 0x20000 * t.liveTiles.length) (s3.bytes t.carveOut.1 t.carveOut.2)
    else s3
  s4.sealImage a

/-- Whether a budget that is exhausted holds nothing (R292). -/
def exhausted (tsw bi bm : Word) : Bool :=
  (tswBexh tsw && getBits bi 0 48 == 0) || (tswMexh tsw && getBits bm 0 48 == 0)

/-- The loads through sheaf windows that a saved task keeps, with the constant range as its plot's plane has it: a plane changes
only once every task of it has yielded, and each load reads the plane of its issue (R27, R255). -/
def Queues.keepConsts (q : Queues) (pl : Plane) : Queues :=
  let windowed (a : LoadAcc) : Bool := (match a.tgt with | .window .. => true | .mem _ => false) && !q.consts.any (·.seq == a.seq)
  let range (a : LoadAcc) : ConstRange := ⟨a.seq, getBits (pl.word 0x10) 0 56, if pl.valid then pl.read 0x44000 0x8000 else []⟩
  { q with consts := q.consts ++ (q.loads.filter windowed).map range }

/-- The image is written: the context is Yielded, freed where the task is alone in its gang; an exhausted budget is
reported (R27, R292, R335). -/
def execContextSaveComplete (c : Nat) (s : State) : Host.Outcome State Fault Refusal :=
  match s.task? c with
  | none => .next s
  | some t =>
    if t.phase != .saving then .next s
    else
      let s1 := s.writeImage t
      let s2 := if exhausted t.csr.tsw t.csr.bi t.csr.bm then
          s1.report (.exhausted c t.no t.job.grid t.tenant t.csr.bi t.csr.bm)
        else s1
      let alone := s.single t
      .next (s2.onTask c (fun t => { t with
        phase := .yielded
        q := t.q.keepConsts (s.plot t.plot).active
        ctx := if alone then none else t.ctx
        job := { t.job with left := t.no, savedAt := s.saveBase t.no, tiles := if alone then [] else t.job.tiles } }))

/-! ## Resumption (R27, R293) -/

/-- KERNEL and VER of the image of a Yielded task (R27, R335). -/
def State.imageKernel (s : State) (t : Task) : Nat × Nat :=
  (getBits (s.word t.job.savedAt) 40 6, getBits (s.word t.job.savedAt) 0 32)

/-- Whether a plot runs what a Yielded task ran, as its image says (R27, R335); a dispatch context fetches from its own address
(R310). -/
def State.plotRuns (s : State) (t : Task) (p : Nat) : Bool :=
  let a := (s.plot p).active
  t.job.disp || (a.holds (s.imageKernel t).1 && getBits (a.word 0) 0 32 == (s.imageKernel t).2)

/-- Whether a task must resume on the tiller it left: it owns a completion map, or a Drill command of it is outstanding. -/
def State.tied (s : State) (uid : Nat) (t : Task) : Bool :=
  let y := s.tiller t.tiller
  !(y.owned uid).isEmpty || y.drill.any (fun d => d.uid == uid && d.kind != .marker)

/-- Whether a free context may take a Yielded task (R27). -/
def State.mayTake (s : State) (uid : Nat) (t : Task) (ctx : Nat) : Bool :=
  let x := s.slot t.job.slot
  let p := ctx / 32
  x.allows p && s.plotRuns t p && (s.heldTiles p).length + x.tiles ≤ 16 && (s.atCtx ctx).isNone &&
    s.descriptors (ctx / 8) + t.q.windows.length ≤ 16 && (!s.tied uid t || ctx / 8 == t.tiller)

/-- The context on which a Yielded task resumes: the one it kept, or the first that may take it (R14, R27). -/
def State.resumeAt (s : State) (uid : Nat) (t : Task) : Option Nat :=
  match t.ctx with
  | some c => if s.plotRuns t (c / 32) then some c else none
  | none => (List.range 4096).find? (s.mayTake uid t)

/-- A control register of an image. -/
def State.imageCsr (s : State) (a n : Nat) : Word := s.word (a + 0x40 + 8 * n) &&& csrMask n

/-- The control registers of an image: words that software has edited are taken by their width, whatever values a write of the
register could leave (R335, DESIGN CHOICE, log entry 49). -/
def State.imageCsrs (s : State) (a : Nat) : Csrs where
  tsw := s.imageCsr a 0
  pix := s.imageCsr a 1
  bi := s.imageCsr a 2
  bm := s.imageCsr a 3
  ypmax := s.imageCsr a 4
  ypcnt := s.imageCsr a 5
  live := s.imageCsr a 6
  loopc := Vector.ofFn (fun (i : Fin 4) => s.imageCsr a (8 + i.val))
  spillbase := s.imageCsr a 0x10
  spillsize := s.imageCsr a 0x11
  ovfptr := s.imageCsr a 0x12
  taskid := s.imageCsr a 0x18
  gridid := s.imageCsr a 0x19
  tcoord := s.imageCsr a 0x1A
  tenant := s.imageCsr a 0x1B
  cap := s.imageCsr a 0x1C
  faddr := s.imageCsr a 0x20
  fsyl := s.imageCsr a 0x21

/-- The registers of an image: those outside its live masks are zero, full and raw (R87). -/
def State.imageRegs (s : State) (a : Nat) (r : Regs) : Regs :=
  let sl := s.word (a + 0x18)
  let vl := s.word (a + 0x20)
  { r with
    s := Vector.ofFn (fun (i : Fin 64) => if i.val ≠ 0 && sl.getLsbD i.val then s.word (a + 0x1880 + 8 * i.val) else 0)
    v := Vector.ofFn (fun (i : Fin 64) =>
      if vl.getLsbD i.val then BitVec.ofNat 1024 (leNat (s.bytes (a + 0x1A80 + 128 * i.val) 128)) else 0)
    vt := Vector.ofFn (fun (i : Fin 64) =>
      if vl.getLsbD i.val then BitVec.ofNat 6 (Memory.get s.mem (a + 0x1C0 + i.val)).toNat else 0)
    fes := s.word (a + 0x178) ||| ~~~sl
    fev := s.word (a + 0x180) ||| ~~~vl }

/-- The status word at resumption (R293). -/
def resumeTsw (w bi bm : Word) : Word :=
  let a := if getBits bi 0 48 = 0 then w else putBit w 7 false
  let b := if getBits bm 0 48 = 0 then a else putBit a 8 false
  putBit b 9 false

/-- The status word with a PL that a task may hold: an image with 0b11 leaves the PL that was saved (R84, DESIGN CHOICE, log
entry 49). -/
def heldPl (w : Word) (pl : Nat) : Word := if tswPl w = 3 then putBits w 4 2 pl else w

/-- A spill base moved with its context (R27, R177, DEDUCED, log entry 25). -/
def movedSpill (w : Word) (ssize old new : Nat) : Word :=
  BitVec.ofNat 64 ((getBits w 6 14 + new % 8 * ssize + 2 ^ 14 * 8 - old % 8 * ssize) % 2 ^ 14 * 64)

/-- A tile of a resumed task: live ones from their region, the others +0 with tag FP32 (R87). -/
def State.restoreTiles (s : State) (a e p : Nat) (tiles : List Nat) : State :=
  let alive := getBits (s.word (a + 0x28)) 0 16
  let live := (List.range tiles.length).filter (fun i => alive.testBit i)
  tiles.zipIdx.foldl (fun s t =>
    let x := if alive.testBit t.2 then
        s.loadTile (e + 0x20000 * (live.filter (· < t.2)).length) (Memory.get s.mem (a + 0x190 + t.2)).toNat
      else Tile.zero
    let y := s.plot p
    s.setPlot p { y with tiles := Tab.set y.tiles t.1 x }) s

/-- A task restored on a context: what software may have written comes from the image, the rest from what the model keeps
of the task (DESIGN CHOICE, log entry 10). -/
def State.restore (s : State) (uid : Nat) (t : Task) (ctx : Nat) : State :=
  let a := t.job.savedAt
  let e := s.extBase t.job.left
  let p := ctx / 32
  let freed := t.ctx.isNone
  let c0 := s.imageCsrs a
  let tiles := if freed then
      ((List.range 16).filter (fun i => !(s.heldTiles p).contains i)).take (s.slot t.job.slot).tiles
    else t.job.tiles
  let c : Csrs := { c0 with
    tsw := putBit (heldPl (resumeTsw c0.tsw c0.bi c0.bm) t.pl) 10 (!t.flow.latches.isEmpty)
    taskid := BitVec.ofNat 64 ctx
    spillbase := if freed then movedSpill c0.spillbase t.job.ssize t.job.left ctx else c0.spillbase }
  let alive := getBits (s.word (a + 0x28)) 0 16
  let t1 : Task := { t with
    ctx := some ctx
    phase := if t.job.lease.isSome then .blocked .acre else .ready
    pc := BitVec.ofNat 64 (getBits (s.word (a + 0x30)) 0 56)
    regs := s.imageRegs a t.regs
    csr := c
    q := { t.q with seq := getBits (s.word (a + 0x38)) 0 48 }
    flow := { t.flow with
      latchStart := none
      inHandler := (s.word (a + 0x28)).getLsbD 16
      range := { t.flow.range with valid := (s.word (a + 0x28)).getLsbD 17 } }
    job := { t.job with
      kernel := (s.imageKernel t).1
      ver := (s.imageKernel t).2
      ob := BitVec.ofNat 64 (getBits (s.word (a + 8)) 0 56)
      tiles := tiles
      issueTags := tiles.zipIdx.map (fun i =>
        if alive.testBit i.2 then (Memory.get s.mem (a + 0x190 + i.2)).toNat % 64 else 31)
      wait := 0
      blockedFor := 0 } }
  let s1 := (s.restoreTiles a e p tiles).setTask uid t1
  let live := ((List.range tiles.length).filter (fun i => alive.testBit i)).length
  let s2 := if freed then s1.store t1.carveOut.1 (s1.bytes (e + 0x20000 * live) t1.carveOut.2) else s1
  if t.job.lease.isSome then
    let y := s2.plot p
    (s2.setPlot p { y with waiting := insertReq ⟨.task uid, t.job.prio, none⟩ y.waiting }).grantNext p
  else s2

/-- The dispatcher restores a Yielded task where R27 lets it, once its budgets do (R292); an image whose CHECK does not
match aborts it with CAUSE 6 (R335). -/
def execContextResume (c : Nat) (s : State) : Host.Outcome State Fault Refusal :=
  match s.task? c with
  | none => .next s
  | some t =>
    let a := t.job.savedAt
    if t.phase != .yielded || exhausted (s.word (a + 0x40)) (s.word (a + 0x50)) (s.word (a + 0x58)) then .next s
    else
      match s.resumeAt c t with
      | none => .next s
      | some ctx =>
        if s.imageCheck a ≠ BitVec.ofNat 32 (leNat (s.bytes (a + 0x5F00) 4)) then
          .next (s.abortGang c 31 6 t.csr.faddr.toNat)
        else .next (s.restore c t ctx)

end Sys2Proof.Machine
end

