-- ==== Sys2Proof/Machine/Probe.lean ====
section
/-! DEFINITION. Pre-emption requests, aborts and grid faults (R15, R25, R85, R337), the wait probe (R17, R336), and `grow`, which
meets a grid fault of its cycle (R321, R326). -/

namespace Sys2Proof.Machine

/-! ## Requests and aborts -/

/-- A pre-emption request (R84): PREQ and YPEND are set. -/
def execPreemptRequest (c : Nat) (s : State) : Host.Outcome State Fault Refusal :=
  match s.task? c with
  | none => .next s
  | some t =>
    match t.phase with
    | .yielded | .saving => .next s
    | _ => .next (s.setTask c t.preempt)

/-- A task whose YPCNT has passed YPMAX ends at its bundle boundary (R85, R332). -/
def execYieldDistanceFault (c : Nat) (s : State) : Host.Outcome State Fault Refusal :=
  match s.task? c with
  | none => .next s
  | some t =>
    let passed := getBits t.csr.ypmax 0 32 < getBits t.csr.ypcnt 0 32
    match t.phase with
    | .yielded | .saving | .ended => .next s
    | _ => if passed && !(s.held.any (fun h => h.2.uid == c)) then .next (s.abortGang c 29 0 t.csr.faddr.toNat) else .next s

/-- The gang of a task aborts with a record of the given code, cause and address (R25, R337). -/
def execGangAbort (c code cause addr : Nat) (s : State) : Host.Outcome State Fault Refusal :=
  if code < 32 && cause < 8 then .next (s.abortGang c code cause addr) else .next s

/-- The management core faults the grid of a slot (R15, R292). -/
def execGridFault (slot cause : Nat) (s : State) : Host.Outcome State Fault Refusal :=
  let x := s.slot slot
  if cause < 8 && (x.st == 3 || x.st == 4) then .next (s.faultGrid slot cause) else .next s

/-- A gang aborts whose members named in `own` record a cause of their own, and the others that another member aborted
(R25, R328, R337): one report, of the first; none of a gang that has aborted. -/
def State.abortOwn (s : State) (own : List Nat) (cause : Nat) (uid : Nat) : State :=
  match (s.task? uid).filter (fun t => t.phase != .aborted) with
  | none => s
  | some t =>
    let s0 := s.report (.abort t.job.grid t.job.group t.no 31 cause t.csr.faddr)
    (s.gang t).foldl (fun s e => s.abortOne e.1 31 (if own.contains e.1 then cause else 5) e.2.csr.faddr.toNat) s0

/-- Every gang of some tasks aborts. -/
def State.abortAll (s : State) (own : List Nat) (cause : Nat) : State := own.foldl (fun s u => s.abortOwn own cause u) s

/-- Started Drill commands of a task whose access met the error stop with a Drill error (R244): which of them did, the event
does not say, and it is a free value (DESIGN CHOICE, log entry 5). -/
def State.drillErr (s : State) (c : Nat) : State :=
  match s.task? c with
  | none => s
  | some t =>
    let met (d : DrillCmd) : Bool :=
      d.started && d.uid == c && d.kind != .marker && (Config.freeWord s.fresh).getLsbD (d.id % 64)
    (((s.tiller t.tiller).drill.filter met).foldl (fun s d => s.drillStop t.tiller d 21 0) s).mint

/-- An uncorrectable memory error aborts every gang that has a member to which it is attributed (R25), and stops a Drill command
that met it (R244). -/
def execUncorrectableError (site : ErrorSite) (s : State) : Host.Outcome State Fault Refusal :=
  match site with
  | .task c => .next ((s.drillErr c).abortAll [c] 1)
  | .plot p => .next (s.abortAll ((s.onPlot p).map (·.1)) 1)
  | .device => .next s

/-! ## Edges of the wait probe (R336) -/

/-- Whether a store or a marker of a queue writes or fills a line. -/
def StoreAcc.writesLine (e : StoreAcc) (line : Nat) : Bool :=
  let hits (tgt : Target) : Bool := match tgt with
    | .mem ps => ps.any (fun p => (pieceLines p).contains line)
    | .window .. => false
  match e with
  | .sta _ _ tgt .. => hits tgt
  | .marker _ _ _ _ tgt op _ =>
    match op with
    | .amo .. | .stfe .. | .setf => hits tgt
    | _ => false

/-- Whether a task holds an unperformed write or fill of a line. -/
def Task.writesLine (t : Task) (line : Nat) : Bool :=
  t.q.stores.any (fun e => e.writesLine line) || t.flow.frame.stores.any (fun e => e.writesLine line) ||
    t.q.buffer.any (·.line == line) || t.q.sigcs.any (fun w => w.pa / 64 == line)

/-- The line of an atomic or `ldfe` whose old value its task awaits (R201, R202). -/
def StoreAcc.awaited (e : StoreAcc) : Option Nat :=
  match e with
  | .marker _ _ _ _ tgt (.amo _ _ _ _ _ dst) _ => if dst.waits then some tgt.line else none
  | .marker _ _ _ _ tgt (.ldfe _ _ dst) _ => if dst.waits then some tgt.line else none
  | _ => none

/-- The line of an atomic whose old value a register awaits (R201, R202). -/
def Task.amoLine (t : Task) : Option Nat := t.q.stores.findSome? StoreAcc.awaited

/-- Whether the head of the load queue is the stub of a marker, which is then the access that waits. -/
def Task.markerFirst (t : Task) : Bool :=
  match t.q.loads with
  | a :: _ => (match a.kind with | .marker _ => true | _ => false)
  | [] => false

/-- Whether an entry of the store queue is an atomic or a sync-word access of a line, or of no line in particular. -/
def StoreAcc.syncs (e : StoreAcc) (line : Option Nat) : Bool :=
  match e with
  | .marker _ _ _ _ tgt _ _ => line.all (fun l => tgt.line == l)
  | .sta .. => false

/-- A task without the access that waits, where that is an entry of its store queue: it is no unperformed write that another
access awaits (DEDUCED, log entry 36). A load that waits leaves the stores as they are. -/
def Task.besides (t : Task) (why : Awaits) : Task :=
  let out (f : StoreAcc → Bool) : Task := { t with q := { t.q with stores := t.q.stores.eraseP f } }
  match why with
  | .loads | .loadData => if t.markerFirst then out (·.syncs none) else t
  | .storeAddr | .storeData => out (·.syncs none)
  | .line l => if t.amoLine == some l then out (·.awaited.isSome) else t
  | .fence l => out (·.syncs (some l))
  | _ => t

/-- The tasks that a wait on a sync line follows: every one with an unperformed write or fill of it, the waiting one among them
for what it holds besides the access that waits; none where a fill of its group is asked for (R270, R336). -/
def State.lineEdges (s : State) (uid : Nat) (why : Awaits) (line : Nat) : List Nat :=
  if s.lineAsked line then []
  else (s.tasks.filter (fun e => (if e.1 = uid then e.2.besides why else e.2).writesLine line)).map (·.1)

/-- The line of an access, where it is parked on one: an empty line of a sync page. -/
def State.parkedLine (s : State) : Target → Option Nat
  | .mem ps => ps.findSome? (fun p => if p.fe then (pieceLines p).find? (fun l => s.empties.contains l) else none)
  | .window .. => none

/-- The line that the head of a task's queues is parked on. -/
def State.headLine (s : State) (t : Task) (loads : Bool) : Option Nat :=
  let store : Option Nat := match t.q.stores with
    | .marker _ _ _ _ tgt op _ :: _ =>
      match op, tgt with
      | .stfe _ false _, .mem (p :: _) => if s.full p.pa then some (p.pa / 64) else none
      | .amo .., _ => s.parkedLine tgt
      | .ldfe .., _ => s.parkedLine tgt
      | _, _ => none
    | _ => none
  if !loads then store
  else
    match t.q.loads with
    | [] => none
    | a :: _ =>
      match a.kind with
      | .marker _ => store
      | _ => s.parkedLine a.tgt

/-- Whether a task is Blocked. -/
def Task.isBlocked (t : Task) : Bool := match t.phase with | .blocked _ => true | _ => false

/-- The resident tasks of a slot's grid. -/
def State.gridTasks (s : State) (n : Nat) : List (Nat × Task) :=
  s.tasks.filter (fun e => e.2.ctx.isSome && e.2.job.slot == n && e.2.job.grid == (s.slot n).grid)

/-- The placements that a record allows a group: the plots of each, as many as could hold it with all contexts free (R13, R17). -/
def Slot.placements (x : Slot) : List (List Nat) :=
  if x.size ≤ 32 then ((List.range 128).filter (fun p => x.allows p && x.size ≤ x.room 32 0)).map (fun p => [p])
  else ((List.range 32).map x.quad).filter (fun ps => x.size ≤ x.room 32 0 * ps.length)

/-- The edges of a waitc on the grid of a slot, and the mark of the edge (R17, R336). -/
def State.gridEdges (s : State) (n : Nat) : List Nat × List Nat :=
  let x := s.slot n
  let live := s.gridTasks n
  if !live.all (fun e => e.2.isBlocked) then ([], [])
  else if x.g ≤ x.next then (live.map (·.1), [])
  else
    let others := s.tasks.filter (fun e =>
      (match e.2.ctx with | some c => x.placements.any (fun ps => ps.contains (c / 32)) | none => false) &&
        !live.any (fun l => l.1 == e.1))
    ((live ++ others).map (·.1), [n])

/-- The edges of a Blocked task by its awaited identity: the tasks that the probe goes on to, and the mark of a waitc
edge (R336). A task's own lease and arrival are no edge to itself (DEDUCED, log entry 36). -/
def State.edges (s : State) (uid : Nat) (t : Task) (why : Awaits) : List Nat × List Nat :=
  let acre : List Nat :=
    ((s.plot t.plot).leases.filterMap (fun e => match e.2.holder with | .task u => some u | .gleaner _ => none)).filter
      (· != uid)
  let line (l : Option Nat) : List Nat := l.elim [] (s.lineEdges uid why)
  match why with
  | .reg n => if t.flow.producers.any (fun p => p.reg == n && p.kind == .alease) then (acre, []) else ([], [])
  | .acre => (acre, [])
  | .loads | .loadData => (line (s.headLine t true), [])
  | .storeAddr | .storeData => (line (s.headLine t false), [])
  | .line l => (s.lineEdges uid why l, [])
  | .fence l => (line (if s.empties.contains l then some l else none), [])
  | .barrier => (((s.gang t).filter (fun e => e.1 != uid && !e.2.job.arrived)).map (·.1), [])
  | .grid n => s.gridEdges n
  | .stream _ | .drill | .engine _ | .slotTable | .transCache => ([], [])

/-! ## The probe (R336) -/

/-- The copies of a probe that a Blocked task sends along its edges. -/
def State.spread (s : State) (uid : Nat) (p : Probe) : State :=
  match s.task? uid with
  | none => s
  | some t =>
    match t.phase with
    | .blocked why =>
      let e := s.edges uid t why
      let new : List Probe := e.1.map (fun u => ⟨p.origin, u, p.path ++ [t.no], p.marks ++ e.2, p.hops + 1⟩)
      { s with probes := s.probes ++ new }
    | _ => s

/-- A context that has been Blocked for 128 cycles sends a probe, and again every 65,536 cycles (R336). -/
def execProbeSend (c : Nat) (s : State) : Host.Outcome State Fault Refusal :=
  match s.task? c with
  | none => .next s
  | some t =>
    if t.isBlocked && 128 ≤ t.job.blockedFor && (t.job.blockedFor - 128) % 65536 = 0 then
      .next (s.spread c ⟨c, c, [], [], 0⟩)
    else .next s

/-- A probe reaches a context: its sender posts a report, a Blocked one forwards it, any other drops it (R336). -/
def execProbeReceive (n : Nat) (s : State) : Host.Outcome State Fault Refusal :=
  match s.probes[n]? with
  | none => .next s
  | some p =>
    let s1 := { s with probes := s.probes.eraseIdx n }
    if p.at_ = p.origin then .next (s1.report (.probe p.path p.marks))
    else if 4096 < p.hops + 1 then .next s1
    else .next (s1.spread p.at_ p)

/-! ## The management core's answer (R17, R336) -/

/-- Whether every resident group of a slot's grid is counter-blocked (R16). -/
def State.counterBlocked (s : State) (n : Nat) : Bool :=
  let live := s.gridTasks n
  live.all (fun e => e.2.isBlocked) &&
    live.all (fun e => live.any (fun o => o.2.job.group == e.2.job.group && o.2.phase == .blocked (.grid n)))

/-- Whether the next group of a slot has room at a plot that neither a pending flip nor a reservation keeps from it: its
dispatcher then places it. -/
def State.placesNow (s : State) (n : Nat) (x : Slot) (p : Nat) : Bool :=
  s.mayPlace x p && !(x.targets p).any (s.reservedAgainst n x)

/-- Whether every placement that the record allows for the next index is held, wholly or partly, by groups of the same
grid (R17). One into which the next group goes at once is no placement that holds it up. -/
def State.placementsHeld (s : State) (n : Nat) : Bool :=
  let x := s.slot n
  let here (p : Nat) : Bool := (s.onPlot p).any (fun e => e.2.job.slot == n && e.2.job.grid == x.grid)
  let head (ps : List Nat) : Nat := if x.size ≤ 32 then ps.headD 0 else 4 * (ps.headD 0 / 4)
  x.placements.all (fun ps => ps.any here && !s.placesNow n x (head ps))

/-- A dispatch-order wait (R17). -/
def State.orderWait (s : State) (n : Nat) : Bool :=
  let x := s.slot n
  (x.st == 3 || x.st == 4) && s.counterBlocked n && x.next < x.g && s.placementsHeld n

/-- The wait cycle of a report: every listed context's gang aborts, and the grids of those contexts fault (R336). -/
def State.breakCycle (s : State) (path : List Nat) : State :=
  let ts := path.filterMap s.atCtx
  let slots := (ts.map (fun e => (e.2.job.slot, e.2.job.grid))).eraseDups
  let s1 := s.abortAll (ts.map (·.1)) 2
  slots.foldl (fun s g => if (s.slot g.1).v && (s.slot g.1).grid == g.2 then s.faultGrid g.1 4 else s) s1

/-- The management core acts on a probe report (R17, R336). -/
def execWaitProbeReport (n : Nat) (s : State) : Host.Outcome State Fault Refusal :=
  match s.reports[n]? with
  | some (.probe path marks) =>
    let s1 := { s with reports := s.reports.eraseIdx n }
    if marks.isEmpty then .next (s1.breakCycle path)
    else .next (marks.eraseDups.foldl (fun s m => if s.orderWait m then s.faultGrid m 3 else s) s1)
  | _ => .next s

/-! ## grow (R321, R326) -/

/-- Whether a happening of the management core faults the grid of a slot. -/
def State.faultedBy (s : State) (n : Nat) (a : Action) : Bool :=
  let gone (r : Host.Outcome State Fault Refusal) : Bool :=
    match r with
    | .next t => (t.slot n).st != (s.slot n).st || (t.slot n).grid != (s.slot n).grid
    | _ => false
  match a with
  | .event (.gridFault m c) => gone (execGridFault m c s)
  | .event (.waitProbeReport m) => gone (execWaitProbeReport m s)
  | _ => false

/-- Whether the grid of a slot faults in the present cycle, by what is still to take place in it: a `grow` of the cycle finds the
grid no longer bound (R326). -/
def State.faultsNow (s : State) (n : Nat) : Bool := (s.agenda.takeWhile (· != .tick)).any (s.faultedBy n)

/-- A grid's group count raised: a drained record is bound again (R18, R321). -/
def Slot.grown (y : Slot) (n uid seq : Nat) : Slot :=
  if n = 0 then y
  else
    let z := (y.put 3 0 40 (y.g + n)).put 0 60 3 3
    { z with grows := y.grows ++ [(y.g, uid, seq)] }

/-- `grow` (R321). -/
def execGrow (x : Syl) (s : State) : Host.Outcome State Fault Refusal :=
  run .C 0x031 x plain (fun g s =>
    let t := s.cur
    let id := getBits g.b.w 0 32
    let n := g.e.w.toNat
    if t.pl = 0 && id ≠ getBits t.csr.gridid 0 32 then .error (.fault 5 none)
    else
      match s.slotNamed id with
      | none => .error (.fault 27 none)
      | some (k, y) =>
        if t.pl = 1 && y.tenant ≠ t.tenant then .error (.fault 5 none)
        else if (y.st ≠ 3 && y.st ≠ 4) || s.faultsNow k then .error (.fault 27 none)
        else if 2 ^ 40 - 1 < y.g + n then .error (.fault 28 none)
        else .ok (s.setSlot k (y.grown n s.stage.uid s.stage.seq))) s

end Sys2Proof.Machine
end

