-- ==== Sys2Proof/Machine/Scalar.lean ====
section
/-! DEFINITION. The S class (05_scalar_address_control, R94 to R105) and `lea` (R106), and the fills of the divider. -/

namespace Sys2Proof.Machine

/-! ## Shared forms -/

/-- A form that writes one `s` register. -/
def sForm (opc lat : Nat) (x : Syl) (f : Args → Task → Word) (s : State) : Host.Outcome State Fault Refusal :=
  run .S opc x plain (fun g s => s.putS x.a lat (f g s.src)) s

/-- A form that writes one predicate. -/
def pForm (opc lat : Nat) (x : Syl) (f : Args → Task → Bool) (s : State) : Host.Outcome State Fault Refusal :=
  run .S opc x plain (fun g s => .ok (s.putP x.a lat (f g s.src))) s

/-- Bits [c:0] of a word sign-extended from bit `c` (R94). -/
def signExtendFrom (c : Nat) (w : Word) : Word := BitVec.ofInt 64 (signed (c + 1) w.toNat)

/-- The number of set bits. -/
def popCount (w : Word) : Nat := ((List.range 64).filter w.getLsbD).length

/-- The number of zero bits above the highest set bit, 64 for zero (R98). -/
def leadingZeros (w : Word) : Nat :=
  match (List.range 64).find? (fun i => w.getLsbD (63 - i)) with
  | some i => i
  | none => 64

/-- The number of zero bits below the lowest set bit, 64 for zero (R98). -/
def trailingZeros (w : Word) : Nat :=
  match (List.range 64).find? w.getLsbD with
  | some i => i
  | none => 64

/-- An FP32 result in an `s` register: bits [63:32] zero. -/
def fword (b : BitVec 32) : Word := b.setWidth 64

/-- The signed quotient of R95. -/
def divQuot (x y : Word) : Word := if y = 0 then BitVec.allOnes 64 else BitVec.ofInt 64 (x.toInt.tdiv y.toInt)

/-- The signed remainder of R95. -/
def divRem (x y : Word) : Word := if y = 0 then x else BitVec.ofInt 64 (x.toInt.tmod y.toInt)

/-- The unsigned quotient of R95. -/
def divuQuot (x y : Word) : Word := if y = 0 then BitVec.allOnes 64 else BitVec.ofNat 64 (x.toNat / y.toNat)

/-- The unsigned remainder of R95. -/
def divuRem (x y : Word) : Word := if y = 0 then x else BitVec.ofNat 64 (x.toNat % y.toNat)

/-- The number of significant bits. -/
def bitLength (n : Nat) : Nat := if n = 0 then 0 else n.log2 + 1

/-- The cycles from the start of a divider operation to its fill, for the magnitude of the dividend (R82). -/
def dividerLatency (mag : Nat) : Nat := 10 + ceilDiv (bitLength mag) 4

/-- A divider form: the tiller's divider takes one operation a cycle, so that the second of a bundle starts one cycle later
(R95). A form of the next cycle waits behind that second one (DEDUCED, log entry 48). -/
def State.divide (s : State) (reg mag : Nat) (val : Word) : Except Stop State :=
  let y := s.tiller s.cur.tiller
  let start := max s.stage.cycle y.divAt
  let s0 := s.setTiller s.cur.tiller { y with divAt := start + 1 }
  if reg = 0 then .ok s0 else s0.produce .divider reg (start + dividerLatency mag) val 0

/-- The integer that `fcvtfi` delivers (R105). -/
def fToInt (d : Nat) (v : Num) : Word :=
  BitVec.ofInt 64 (
    if d = 0 then cvtInt (-2 ^ 31) (2 ^ 31 - 1) v
    else if d = 1 then cvtInt 0 (2 ^ 32 - 1) v
    else if d = 2 then cvtInt (-2 ^ 63) (2 ^ 63 - 1) v
    else cvtInt 0 (2 ^ 64 - 1) v)

/-- The integer that `fcvtif` converts (R105). -/
def intSource (d : Nat) (w : Word) : Int :=
  if d = 0 then signed 32 w.toNat
  else if d = 1 then (w.toNat % 2 ^ 32 : Nat)
  else if d = 2 then w.toInt
  else w.toNat

/-! ## The forms -/

/-- Wrapping sum (R94). -/
def execAdd (x : Syl) (s : State) : Host.Outcome State Fault Refusal :=
  sForm 0x001 1 x (fun g _ => g.b.w + g.e.w) s

/-- Wrapping difference (R94). -/
def execSub (x : Syl) (s : State) : Host.Outcome State Fault Refusal :=
  sForm 0x002 1 x (fun g _ => g.b.w - g.e.w) s

/-- Wrapping product (R94). -/
def execMul (x : Syl) (s : State) : Host.Outcome State Fault Refusal :=
  sForm 0x003 3 x (fun g _ => g.b.w * g.e.w) s

/-- High half of the signed product (R94). -/
def execMulh (x : Syl) (s : State) : Host.Outcome State Fault Refusal :=
  sForm 0x004 3 x (fun g _ => BitVec.ofInt 64 (g.b.w.toInt * g.e.w.toInt / 2 ^ 64)) s

/-- High half of the unsigned product (R94). -/
def execMulhu (x : Syl) (s : State) : Host.Outcome State Fault Refusal :=
  sForm 0x005 3 x (fun g _ => BitVec.ofNat 64 (g.b.w.toNat * g.e.w.toNat / 2 ^ 64)) s

/-- Scaled sum (R94). -/
def execShadd (x : Syl) (s : State) : Host.Outcome State Fault Refusal :=
  sForm 0x006 1 x (fun g _ => BitVec.ofNat 64 (g.b.w.toNat * 2 ^ x.c.toNat + g.e.w.toNat)) s

/-- Bits [C:0] sign-extended (R94). -/
def execSext (x : Syl) (s : State) : Host.Outcome State Fault Refusal :=
  sForm 0x007 1 x (fun g _ => signExtendFrom x.c.toNat g.b.w) s

/-- Bits [C:0] zero-extended (R94). -/
def execZext (x : Syl) (s : State) : Host.Outcome State Fault Refusal :=
  sForm 0x008 1 x (fun g _ => BitVec.ofNat 64 (getBits g.b.w 0 (x.c.toNat + 1))) s

/-- Smaller, signed (R94). -/
def execMin (x : Syl) (s : State) : Host.Outcome State Fault Refusal :=
  sForm 0x009 1 x (fun g _ => if g.b.w.slt g.e.w then g.b.w else g.e.w) s

/-- Smaller, unsigned (R94). -/
def execMinu (x : Syl) (s : State) : Host.Outcome State Fault Refusal :=
  sForm 0x00A 1 x (fun g _ => if g.b.w.ult g.e.w then g.b.w else g.e.w) s

/-- Larger, signed (R94). -/
def execMax (x : Syl) (s : State) : Host.Outcome State Fault Refusal :=
  sForm 0x00B 1 x (fun g _ => if g.b.w.slt g.e.w then g.e.w else g.b.w) s

/-- Larger, unsigned (R94). -/
def execMaxu (x : Syl) (s : State) : Host.Outcome State Fault Refusal :=
  sForm 0x00C 1 x (fun g _ => if g.b.w.ult g.e.w then g.e.w else g.b.w) s

/-- Signed quotient, delivered by the divider (R95). -/
def execDiv (x : Syl) (s : State) : Host.Outcome State Fault Refusal :=
  run .S 0x010 x plain (fun g s => s.divide x.a.toNat g.b.w.toInt.natAbs (divQuot g.b.w g.e.w)) s

/-- Unsigned quotient, delivered by the divider (R95). -/
def execDivu (x : Syl) (s : State) : Host.Outcome State Fault Refusal :=
  run .S 0x011 x plain (fun g s => s.divide x.a.toNat g.b.w.toNat (divuQuot g.b.w g.e.w)) s

/-- Signed remainder, delivered by the divider (R95). -/
def execRem (x : Syl) (s : State) : Host.Outcome State Fault Refusal :=
  run .S 0x012 x plain (fun g s => s.divide x.a.toNat g.b.w.toInt.natAbs (divRem g.b.w g.e.w)) s

/-- Unsigned remainder, delivered by the divider (R95). -/
def execRemu (x : Syl) (s : State) : Host.Outcome State Fault Refusal :=
  run .S 0x013 x plain (fun g s => s.divide x.a.toNat g.b.w.toNat (divuRem g.b.w g.e.w)) s

/-- And (R96). -/
def execAnd (x : Syl) (s : State) : Host.Outcome State Fault Refusal :=
  sForm 0x020 1 x (fun g _ => g.b.w &&& g.e.w) s

/-- Or (R96). -/
def execOr (x : Syl) (s : State) : Host.Outcome State Fault Refusal :=
  sForm 0x021 1 x (fun g _ => g.b.w ||| g.e.w) s

/-- Exclusive or (R96). -/
def execXor (x : Syl) (s : State) : Host.Outcome State Fault Refusal :=
  sForm 0x022 1 x (fun g _ => g.b.w ^^^ g.e.w) s

/-- And not (R96). -/
def execAndn (x : Syl) (s : State) : Host.Outcome State Fault Refusal :=
  sForm 0x023 1 x (fun g _ => g.b.w &&& ~~~g.e.w) s

/-- Or not (R96). -/
def execOrn (x : Syl) (s : State) : Host.Outcome State Fault Refusal :=
  sForm 0x024 1 x (fun g _ => g.b.w ||| ~~~g.e.w) s

/-- Shift left (R96). -/
def execShl (x : Syl) (s : State) : Host.Outcome State Fault Refusal :=
  sForm 0x025 1 x (fun g _ => g.b.w <<< (g.e.w.toNat % 64)) s

/-- Logical shift right (R96). -/
def execShr (x : Syl) (s : State) : Host.Outcome State Fault Refusal :=
  sForm 0x026 1 x (fun g _ => g.b.w >>> (g.e.w.toNat % 64)) s

/-- Arithmetic shift right (R96). -/
def execSar (x : Syl) (s : State) : Host.Outcome State Fault Refusal :=
  sForm 0x027 1 x (fun g _ => g.b.w.sshiftRight (g.e.w.toNat % 64)) s

/-- Rotate left (R96). -/
def execRol (x : Syl) (s : State) : Host.Outcome State Fault Refusal :=
  sForm 0x028 1 x (fun g _ => g.b.w.rotateLeft (g.e.w.toNat % 64)) s

/-- Rotate right (R96). -/
def execRor (x : Syl) (s : State) : Host.Outcome State Fault Refusal :=
  sForm 0x029 1 x (fun g _ => g.b.w.rotateRight (g.e.w.toNat % 64)) s

/-- Bit field extracted (R97). -/
def execBext (x : Syl) (s : State) : Host.Outcome State Fault Refusal :=
  sForm 0x030 1 x (fun g _ => BitVec.ofNat 64 (getBits g.b.w x.c.toNat x.d.toNat)) s

/-- Bit field inserted (R97). -/
def execBins (x : Syl) (s : State) : Host.Outcome State Fault Refusal :=
  sForm 0x031 1 x (fun g _ => putBits g.b.w x.c.toNat x.d.toNat g.e.w.toNat) s

/-- Zero bits above the highest set bit (R98). -/
def execClz (x : Syl) (s : State) : Host.Outcome State Fault Refusal :=
  sForm 0x032 1 x (fun g _ => BitVec.ofNat 64 (leadingZeros g.b.w)) s

/-- Zero bits below the lowest set bit (R98). -/
def execCtz (x : Syl) (s : State) : Host.Outcome State Fault Refusal :=
  sForm 0x033 1 x (fun g _ => BitVec.ofNat 64 (trailingZeros g.b.w)) s

/-- Number of set bits (R98). -/
def execPopc (x : Syl) (s : State) : Host.Outcome State Fault Refusal :=
  sForm 0x034 1 x (fun g _ => BitVec.ofNat 64 (popCount g.b.w)) s

/-- Move (R99). -/
def execMov (x : Syl) (s : State) : Host.Outcome State Fault Refusal :=
  sForm 0x040 1 x (fun g _ => g.b.w) s

/-- Operand E (R99). -/
def execLi (x : Syl) (s : State) : Host.Outcome State Fault Refusal :=
  sForm 0x041 1 x (fun g _ => g.e.w) s

/-- Selection by a predicate (R99). -/
def execSel (x : Syl) (s : State) : Host.Outcome State Fault Refusal :=
  sForm 0x042 1 x (fun g t => if t.regs.getP x.c.toNat then g.b.w else g.e.w) s

/-- Equal (R100). -/
def execCmpeq (x : Syl) (s : State) : Host.Outcome State Fault Refusal :=
  pForm 0x050 1 x (fun g _ => g.b.w == g.e.w) s

/-- Not equal (R100). -/
def execCmpne (x : Syl) (s : State) : Host.Outcome State Fault Refusal :=
  pForm 0x051 1 x (fun g _ => g.b.w != g.e.w) s

/-- Less, signed (R100). -/
def execCmplt (x : Syl) (s : State) : Host.Outcome State Fault Refusal :=
  pForm 0x052 1 x (fun g _ => g.b.w.slt g.e.w) s

/-- Less, unsigned (R100). -/
def execCmpltu (x : Syl) (s : State) : Host.Outcome State Fault Refusal :=
  pForm 0x053 1 x (fun g _ => g.b.w.ult g.e.w) s

/-- Less or equal, signed (R100). -/
def execCmple (x : Syl) (s : State) : Host.Outcome State Fault Refusal :=
  pForm 0x054 1 x (fun g _ => g.b.w.sle g.e.w) s

/-- Less or equal, unsigned (R100). -/
def execCmpleu (x : Syl) (s : State) : Host.Outcome State Fault Refusal :=
  pForm 0x055 1 x (fun g _ => g.b.w.ule g.e.w) s

/-- And of predicates (R101). -/
def execPand (x : Syl) (s : State) : Host.Outcome State Fault Refusal :=
  pForm 0x058 1 x (fun _ t => t.regs.getP x.b.toNat && t.regs.getP x.c.toNat) s

/-- Or of predicates (R101). -/
def execPor (x : Syl) (s : State) : Host.Outcome State Fault Refusal :=
  pForm 0x059 1 x (fun _ t => t.regs.getP x.b.toNat || t.regs.getP x.c.toNat) s

/-- Exclusive or of predicates (R101). -/
def execPxor (x : Syl) (s : State) : Host.Outcome State Fault Refusal :=
  pForm 0x05A 1 x (fun _ t => t.regs.getP x.b.toNat ^^ t.regs.getP x.c.toNat) s

/-- And not of predicates (R101). -/
def execPandn (x : Syl) (s : State) : Host.Outcome State Fault Refusal :=
  pForm 0x05B 1 x (fun _ t => t.regs.getP x.b.toNat && !t.regs.getP x.c.toNat) s

/-- FP32 sum (R102). -/
def execFadd (x : Syl) (s : State) : Host.Outcome State Fault Refusal :=
  sForm 0x080 4 x (fun g _ => fword (round32 (Num.add (f32lo g.b.w) (f32lo g.e.w)))) s

/-- FP32 difference (R102). -/
def execFsub (x : Syl) (s : State) : Host.Outcome State Fault Refusal :=
  sForm 0x081 4 x (fun g _ => fword (round32 (Num.add (f32lo g.b.w) (f32lo g.e.w).negate))) s

/-- FP32 product (R102). -/
def execFmul (x : Syl) (s : State) : Host.Outcome State Fault Refusal :=
  sForm 0x082 4 x (fun g _ => fword (round32 (Num.mul (f32lo g.b.w) (f32lo g.e.w)))) s

/-- FP32 product and sum, rounded once (R102). -/
def execFfma (x : Syl) (s : State) : Host.Outcome State Fault Refusal :=
  sForm 0x083 4 x (fun g _ => fword (round32 (Num.add (Num.mul (f32lo g.b.w) (f32lo g.c.w)) (f32lo g.e.w)))) s

/-- Smaller FP32 operand (R103). -/
def execFmin (x : Syl) (s : State) : Host.Outcome State Fault Refusal :=
  sForm 0x084 4 x (fun g _ => fword (fmin32 (g.b.w.setWidth 32) (g.e.w.setWidth 32))) s

/-- Larger FP32 operand (R103). -/
def execFmax (x : Syl) (s : State) : Host.Outcome State Fault Refusal :=
  sForm 0x085 4 x (fun g _ => fword (fmax32 (g.b.w.setWidth 32) (g.e.w.setWidth 32))) s

/-- FP32 equal (R104). -/
def execFcmpeq (x : Syl) (s : State) : Host.Outcome State Fault Refusal :=
  pForm 0x086 4 x (fun g _ => Num.eq (f32lo g.b.w) (f32lo g.e.w)) s

/-- FP32 less (R104). -/
def execFcmplt (x : Syl) (s : State) : Host.Outcome State Fault Refusal :=
  pForm 0x087 4 x (fun g _ => Num.lt (f32lo g.b.w) (f32lo g.e.w)) s

/-- FP32 less or equal (R104). -/
def execFcmple (x : Syl) (s : State) : Host.Outcome State Fault Refusal :=
  pForm 0x088 4 x (fun g _ => Num.le (f32lo g.b.w) (f32lo g.e.w)) s

/-- FP32 to integer (R105). -/
def execFcvtfi (x : Syl) (s : State) : Host.Outcome State Fault Refusal :=
  sForm 0x089 4 x (fun g _ => fToInt x.d.toNat (f32lo g.b.w)) s

/-- Integer to FP32 (R105). -/
def execFcvtif (x : Syl) (s : State) : Host.Outcome State Fault Refusal :=
  sForm 0x08A 4 x (fun g _ => fword (round32 (Num.ofInt (intSource x.d.toNat g.b.w)))) s

/-- Address arithmetic in the A slot (R106). -/
def execLea (x : Syl) (s : State) : Host.Outcome State Fault Refusal :=
  run .A 0x001 x plain
    (fun g s => s.putS x.a 1 (BitVec.ofNat 64 (g.b.w.toNat + g.e.w.toNat * 2 ^ x.d.toNat))) s

/-- No operation: the guard, the charge, the hold state (R71, R115). -/
def execNop (k : Cls) (x : Syl) (s : State) : Host.Outcome State Fault Refusal :=
  run k 0x000 x plain (fun _ s => .ok s) s

/-! ## Landings and fills -/

/-- The fills that are due: the divider's, and the answer to an `alease.try` that finds no entry (R79, R82, R151). -/
def Task.fillDividers (t : Task) (now : Nat) : Task :=
  (t.flow.producers.filter (fun p => (p.kind == .divider || (p.kind == .alease && p.due != 0)) && p.due ≤ now)).foldl
    (fun t p => t.fill p.id (vec p.val) 0) t

/-- Everything of a task that is due: landings, then the divider's fills. -/
def Task.settle (t : Task) (now : Nat) : Task := (t.landDue now).fillDividers now

/-- The results of a task that are due land (R81). -/
def execResultLand (c : Nat) (s : State) : Host.Outcome State Fault Refusal :=
  .next (s.onTask c (fun t => t.landDue s.cycle))

/-- A divider register is filled (R95). -/
def execDividerFill (c : Nat) (s : State) : Host.Outcome State Fault Refusal :=
  .next (s.onTask c (fun t => t.fillDividers s.cycle))

/-- The latches of a task that are due deliver (R331). -/
def execShadowLatchDeliver (c : Nat) (s : State) : Host.Outcome State Fault Refusal :=
  .next (s.onTask c (fun t => if t.flow.latches.isEmpty then t else t.landDue s.cycle))

end Sys2Proof.Machine
end

