-- ==== Sys2Proof/Machine/Dispatch.lean ====
section
/-! DEFINITION. The meaning of every instruction: one arm per constructor, each a direct call of its meaning. -/

namespace Sys2Proof.Machine

/-- What an instruction does: a syllable acts on the bundle that the stage holds, an event on the device. -/
def exec (i : Instr) (s : State) : Host.Outcome State Fault Refusal :=
  match i with
  | .nop k x => Sys2Proof.Machine.execNop k x s
  | .lea x => Sys2Proof.Machine.execLea x s
  | .lda x => Sys2Proof.Machine.execLda x s
  | .ldav x => Sys2Proof.Machine.execLdav x s
  | .sta x => Sys2Proof.Machine.execSta x s
  | .staV x => Sys2Proof.Machine.execStaV x s
  | .mark x => Sys2Proof.Machine.execMark x s
  | .pref x => Sys2Proof.Machine.execPref x s
  | .ldr x => Sys2Proof.Machine.execLdr x s
  | .amoadd x => Sys2Proof.Machine.execAmoadd x s
  | .amoswap x => Sys2Proof.Machine.execAmoswap x s
  | .amocas x => Sys2Proof.Machine.execAmocas x s
  | .amomin x => Sys2Proof.Machine.execAmomin x s
  | .amomax x => Sys2Proof.Machine.execAmomax x s
  | .amoand x => Sys2Proof.Machine.execAmoand x s
  | .amoor x => Sys2Proof.Machine.execAmoor x s
  | .amoxor x => Sys2Proof.Machine.execAmoxor x s
  | .ldfe x => Sys2Proof.Machine.execLdfe x s
  | .stfe x => Sys2Proof.Machine.execStfe x s
  | .setf x => Sys2Proof.Machine.execSetf x s
  | .sete x => Sys2Proof.Machine.execSete x s
  | .fence x => Sys2Proof.Machine.execFence x s
  | .fenceRel x => Sys2Proof.Machine.execFenceRel x s
  | .fenceAcq x => Sys2Proof.Machine.execFenceAcq x s
  | .fwait x => Sys2Proof.Machine.execFwait x s
  | .shbind x => Sys2Proof.Machine.execShbind x s
  | .shbindw x => Sys2Proof.Machine.execShbindw x s
  | .shunb x => Sys2Proof.Machine.execShunb x s
  | .binds x => Sys2Proof.Machine.execBinds x s
  | .unbs x => Sys2Proof.Machine.execUnbs x s
  | .tlbinvPage x => Sys2Proof.Machine.execTlbinvPage x s
  | .tlbinvRange x => Sys2Proof.Machine.execTlbinvRange x s
  | .tlbinvTenant x => Sys2Proof.Machine.execTlbinvTenant x s
  | .tlbinvAll x => Sys2Proof.Machine.execTlbinvAll x s
  | .add x => Sys2Proof.Machine.execAdd x s
  | .sub x => Sys2Proof.Machine.execSub x s
  | .mul x => Sys2Proof.Machine.execMul x s
  | .mulh x => Sys2Proof.Machine.execMulh x s
  | .mulhu x => Sys2Proof.Machine.execMulhu x s
  | .shadd x => Sys2Proof.Machine.execShadd x s
  | .sext x => Sys2Proof.Machine.execSext x s
  | .zext x => Sys2Proof.Machine.execZext x s
  | .min x => Sys2Proof.Machine.execMin x s
  | .minu x => Sys2Proof.Machine.execMinu x s
  | .max x => Sys2Proof.Machine.execMax x s
  | .maxu x => Sys2Proof.Machine.execMaxu x s
  | .div x => Sys2Proof.Machine.execDiv x s
  | .divu x => Sys2Proof.Machine.execDivu x s
  | .rem x => Sys2Proof.Machine.execRem x s
  | .remu x => Sys2Proof.Machine.execRemu x s
  | .and x => Sys2Proof.Machine.execAnd x s
  | .or x => Sys2Proof.Machine.execOr x s
  | .xor x => Sys2Proof.Machine.execXor x s
  | .andn x => Sys2Proof.Machine.execAndn x s
  | .orn x => Sys2Proof.Machine.execOrn x s
  | .shl x => Sys2Proof.Machine.execShl x s
  | .shr x => Sys2Proof.Machine.execShr x s
  | .sar x => Sys2Proof.Machine.execSar x s
  | .rol x => Sys2Proof.Machine.execRol x s
  | .ror x => Sys2Proof.Machine.execRor x s
  | .bext x => Sys2Proof.Machine.execBext x s
  | .bins x => Sys2Proof.Machine.execBins x s
  | .clz x => Sys2Proof.Machine.execClz x s
  | .ctz x => Sys2Proof.Machine.execCtz x s
  | .popc x => Sys2Proof.Machine.execPopc x s
  | .mov x => Sys2Proof.Machine.execMov x s
  | .li x => Sys2Proof.Machine.execLi x s
  | .sel x => Sys2Proof.Machine.execSel x s
  | .cmpeq x => Sys2Proof.Machine.execCmpeq x s
  | .cmpne x => Sys2Proof.Machine.execCmpne x s
  | .cmplt x => Sys2Proof.Machine.execCmplt x s
  | .cmpltu x => Sys2Proof.Machine.execCmpltu x s
  | .cmple x => Sys2Proof.Machine.execCmple x s
  | .cmpleu x => Sys2Proof.Machine.execCmpleu x s
  | .pand x => Sys2Proof.Machine.execPand x s
  | .por x => Sys2Proof.Machine.execPor x s
  | .pxor x => Sys2Proof.Machine.execPxor x s
  | .pandn x => Sys2Proof.Machine.execPandn x s
  | .fadd x => Sys2Proof.Machine.execFadd x s
  | .fsub x => Sys2Proof.Machine.execFsub x s
  | .fmul x => Sys2Proof.Machine.execFmul x s
  | .ffma x => Sys2Proof.Machine.execFfma x s
  | .fmin x => Sys2Proof.Machine.execFmin x s
  | .fmax x => Sys2Proof.Machine.execFmax x s
  | .fcmpeq x => Sys2Proof.Machine.execFcmpeq x s
  | .fcmplt x => Sys2Proof.Machine.execFcmplt x s
  | .fcmple x => Sys2Proof.Machine.execFcmple x s
  | .fcvtfi x => Sys2Proof.Machine.execFcvtfi x s
  | .fcvtif x => Sys2Proof.Machine.execFcvtif x s
  | .vadd x => Sys2Proof.Machine.execVadd x s
  | .vsub x => Sys2Proof.Machine.execVsub x s
  | .vmul x => Sys2Proof.Machine.execVmul x s
  | .vdiv x => Sys2Proof.Machine.execVdiv x s
  | .vmin x => Sys2Proof.Machine.execVmin x s
  | .vmax x => Sys2Proof.Machine.execVmax x s
  | .vfma x => Sys2Proof.Machine.execVfma x s
  | .vclamp x => Sys2Proof.Machine.execVclamp x s
  | .vsqrt x => Sys2Proof.Machine.execVsqrt x s
  | .vabs x => Sys2Proof.Machine.execVabs x s
  | .vneg x => Sys2Proof.Machine.execVneg x s
  | .viadd x => Sys2Proof.Machine.execViadd x s
  | .visub x => Sys2Proof.Machine.execVisub x s
  | .vimul x => Sys2Proof.Machine.execVimul x s
  | .vsadd x => Sys2Proof.Machine.execVsadd x s
  | .vssub x => Sys2Proof.Machine.execVssub x s
  | .vand x => Sys2Proof.Machine.execVand x s
  | .vor x => Sys2Proof.Machine.execVor x s
  | .vxor x => Sys2Proof.Machine.execVxor x s
  | .vandn x => Sys2Proof.Machine.execVandn x s
  | .vshl x => Sys2Proof.Machine.execVshl x s
  | .vshr x => Sys2Proof.Machine.execVshr x s
  | .vsar x => Sys2Proof.Machine.execVsar x s
  | .vcmpeq x => Sys2Proof.Machine.execVcmpeq x s
  | .vcmpne x => Sys2Proof.Machine.execVcmpne x s
  | .vcmplt x => Sys2Proof.Machine.execVcmplt x s
  | .vcmple x => Sys2Proof.Machine.execVcmple x s
  | .vcmpun x => Sys2Proof.Machine.execVcmpun x s
  | .kand x => Sys2Proof.Machine.execKand x s
  | .kor x => Sys2Proof.Machine.execKor x s
  | .kxor x => Sys2Proof.Machine.execKxor x s
  | .knot x => Sys2Proof.Machine.execKnot x s
  | .kpopc x => Sys2Proof.Machine.execKpopc x s
  | .vsel x => Sys2Proof.Machine.execVsel x s
  | .vmov x => Sys2Proof.Machine.execVmov x s
  | .vbcast x => Sys2Proof.Machine.execVbcast x s
  | .vext x => Sys2Proof.Machine.execVext x s
  | .vtag x => Sys2Proof.Machine.execVtag x s
  | .vcvt x => Sys2Proof.Machine.execVcvt x s
  | .vquant x => Sys2Proof.Machine.execVquant x s
  | .vamax x => Sys2Proof.Machine.execVamax x s
  | .vpair x => Sys2Proof.Machine.execVpair x s
  | .vsplit x => Sys2Proof.Machine.execVsplit x s
  | .vredsum x => Sys2Proof.Machine.execVredsum x s
  | .vredmax x => Sys2Proof.Machine.execVredmax x s
  | .vredmin x => Sys2Proof.Machine.execVredmin x s
  | .vscan x => Sys2Proof.Machine.execVscan x s
  | .vexp x => Sys2Proof.Machine.execVexp x s
  | .vlog x => Sys2Proof.Machine.execVlog x s
  | .vrcp x => Sys2Proof.Machine.execVrcp x s
  | .vrsqrt x => Sys2Proof.Machine.execVrsqrt x s
  | .vtanh x => Sys2Proof.Machine.execVtanh x s
  | .vsilu x => Sys2Proof.Machine.execVsilu x s
  | .vgelu x => Sys2Proof.Machine.execVgelu x s
  | .vperm x => Sys2Proof.Machine.execVperm x s
  | .vrot x => Sys2Proof.Machine.execVrot x s
  | .vzip x => Sys2Proof.Machine.execVzip x s
  | .vunzip x => Sys2Proof.Machine.execVunzip x s
  | .vcompress x => Sys2Proof.Machine.execVcompress x s
  | .vexpand x => Sys2Proof.Machine.execVexpand x s
  | .vtopk x => Sys2Proof.Machine.execVtopk x s
  | .vprune x => Sys2Proof.Machine.execVprune x s
  | .vtopkm x => Sys2Proof.Machine.execVtopkm x s
  | .vprunem x => Sys2Proof.Machine.execVprunem x s
  | .vcmpm x => Sys2Proof.Machine.execVcmpm x s
  | .vredm x => Sys2Proof.Machine.execVredm x s
  | .vgathm x => Sys2Proof.Machine.execVgathm x s
  | .rangeGroupComplete c ext => Sys2Proof.Machine.execRangeGroupComplete c ext s
  | .alease x => Sys2Proof.Machine.execAlease x s
  | .aleaseTry x => Sys2Proof.Machine.execAleaseTry x s
  | .arel x => Sys2Proof.Machine.execArel x s
  | .aidx x => Sys2Proof.Machine.execAidx x s
  | .abind x => Sys2Proof.Machine.execAbind x s
  | .ascl x => Sys2Proof.Machine.execAscl x s
  | .amul x => Sys2Proof.Machine.execAmul x s
  | .amac x => Sys2Proof.Machine.execAmac x s
  | .amulm x => Sys2Proof.Machine.execAmulm x s
  | .amacm x => Sys2Proof.Machine.execAmacm x s
  | .azero x => Sys2Proof.Machine.execAzero x s
  | .acvt x => Sys2Proof.Machine.execAcvt x s
  | .amove x => Sys2Proof.Machine.execAmove x s
  | .astore x => Sys2Proof.Machine.execAstore x s
  | .apred x => Sys2Proof.Machine.execApred x s
  | .await x => Sys2Proof.Machine.execAwait x s
  | .copy x => Sys2Proof.Machine.execCopy x s
  | .drill x => Sys2Proof.Machine.execDrill x s
  | .drw x => Sys2Proof.Machine.execDrw x s
  | .drain x => Sys2Proof.Machine.execDrain x s
  | .drainAll x => Sys2Proof.Machine.execDrainAll x s
  | .coll x => Sys2Proof.Machine.execColl x s
  | .collTopk x => Sys2Proof.Machine.execCollTopk x s
  | .a2a x => Sys2Proof.Machine.execA2a x s
  | .sample x => Sys2Proof.Machine.execSample x s
  | .glean x => Sys2Proof.Machine.execGlean x s
  | .br x => Sys2Proof.Machine.execBr x s
  | .bri x => Sys2Proof.Machine.execBri x s
  | .call x => Sys2Proof.Machine.execCall x s
  | .ret x => Sys2Proof.Machine.execRet x s
  | .loop x => Sys2Proof.Machine.execLoop x s
  | .loopl x => Sys2Proof.Machine.execLoopl x s
  | .bar x => Sys2Proof.Machine.execBar x s
  | .phase x => Sys2Proof.Machine.execPhase x s
  | .endTask x => Sys2Proof.Machine.execEndTask x s
  | .csrr x => Sys2Proof.Machine.execCsrr x s
  | .csrw x => Sys2Proof.Machine.execCsrw x s
  | .csrs x => Sys2Proof.Machine.execCsrs x s
  | .csrc x => Sys2Proof.Machine.execCsrc x s
  | .jtab x => Sys2Proof.Machine.execJtab x s
  | .jtabRes x => Sys2Proof.Machine.execJtabRes x s
  | .trap x => Sys2Proof.Machine.execTrap x s
  | .rett x => Sys2Proof.Machine.execRett x s
  | .yield x => Sys2Proof.Machine.execYield x s
  | .synct x => Sys2Proof.Machine.execSynct x s
  | .launch x => Sys2Proof.Machine.execLaunch x s
  | .grow x => Sys2Proof.Machine.execGrow x s
  | .waitc x => Sys2Proof.Machine.execWaitc x s
  | .sigc x => Sys2Proof.Machine.execSigc x s
  | .swap x => Sys2Proof.Machine.execSwap x s
  | .bget x => Sys2Proof.Machine.execBget x s
  | .bgive x => Sys2Proof.Machine.execBgive x s
  | .topup x => Sys2Proof.Machine.execTopup x s
  | .cwait x => Sys2Proof.Machine.execCwait x s
  | .ctest x => Sys2Proof.Machine.execCtest x s
  | .rcupdF32 x => Sys2Proof.Machine.execRcupdF32 x s
  | .rcupdBf16 x => Sys2Proof.Machine.execRcupdBf16 x s
  | .rcupdLd x => Sys2Proof.Machine.execRcupdLd x s
  | .rcupdSt x => Sys2Proof.Machine.execRcupdSt x s
  | .harrow x => Sys2Proof.Machine.execHarrow x s
  | .furrow x => Sys2Proof.Machine.execFurrow x s
  | .xnote x => Sys2Proof.Machine.execXnote x s
  | .route x => Sys2Proof.Machine.execRoute x s
  | .rdcnt x => Sys2Proof.Machine.execRdcnt x s
  | .resultLand c => Sys2Proof.Machine.execResultLand c s
  | .dividerFill c => Sys2Proof.Machine.execDividerFill c s
  | .shadowLatchDeliver c => Sys2Proof.Machine.execShadowLatchDeliver c s
  | .loadPerform c n => Sys2Proof.Machine.execLoadPerform c n s
  | .storePerform c => Sys2Proof.Machine.execStorePerform c s
  | .storeBufferWriteback c => Sys2Proof.Machine.execStoreBufferWriteback c s
  | .atomicPerform c => Sys2Proof.Machine.execAtomicPerform c s
  | .syncOpPerform c => Sys2Proof.Machine.execSyncOpPerform c s
  | .lateAccessFault c => Sys2Proof.Machine.execLateAccessFault c s
  | .aleaseGrant plot => Sys2Proof.Machine.execAleaseGrant plot s
  | .leaseEntryFree plot entry => Sys2Proof.Machine.execLeaseEntryFree plot entry s
  | .acreCommandExecute plot ext => Sys2Proof.Machine.execAcreCommandExecute plot ext s
  | .amoveFill c => Sys2Proof.Machine.execAmoveFill c s
  | .acreQuantumEnd plot => Sys2Proof.Machine.execAcreQuantumEnd plot s
  | .barrierComplete slot group => Sys2Proof.Machine.execBarrierComplete slot group s
  | .tlbinvComplete c => Sys2Proof.Machine.execTlbinvComplete c s
  | .streamReadAhead c q ext => Sys2Proof.Machine.execStreamReadAhead c q ext s
  | .streamWriteBehind c q => Sys2Proof.Machine.execStreamWriteBehind c q s
  | .drillCommandStart tiller ext => Sys2Proof.Machine.execDrillCommandStart tiller ext s
  | .drillElementTransfer tiller n ext => Sys2Proof.Machine.execDrillElementTransfer tiller n ext s
  | .chunkComplete tiller n chunk => Sys2Proof.Machine.execChunkComplete tiller n chunk s
  | .furrowExecute tiller n ext => Sys2Proof.Machine.execFurrowExecute tiller n ext s
  | .collectiveInstanceStart group inst far ext => Sys2Proof.Machine.execCollectiveInstanceStart group inst far ext s
  | .collectiveInstanceComplete group inst far ext => Sys2Proof.Machine.execCollectiveInstanceComplete group inst far ext s
  | .sampleServe die ext => Sys2Proof.Machine.execSampleServe die ext s
  | .sigcWrite c => Sys2Proof.Machine.execSigcWrite c s
  | .taskDone c => Sys2Proof.Machine.execTaskDone c s
  | .launchRecordRead slot ext => Sys2Proof.Machine.execLaunchRecordRead slot ext s
  | .slotTableWrite w slot words => Sys2Proof.Machine.execSlotTableWrite w slot words s
  | .groupPlace plot ext => Sys2Proof.Machine.execGroupPlace plot ext s
  | .preemptRequest c => Sys2Proof.Machine.execPreemptRequest c s
  | .yieldTaken c => Sys2Proof.Machine.execYieldTaken c s
  | .contextSaveComplete c => Sys2Proof.Machine.execContextSaveComplete c s
  | .contextResume c => Sys2Proof.Machine.execContextResume c s
  | .yieldDistanceFault c => Sys2Proof.Machine.execYieldDistanceFault c s
  | .uncorrectableError site => Sys2Proof.Machine.execUncorrectableError site s
  | .gangAbort c code cause addr => Sys2Proof.Machine.execGangAbort c code cause addr s
  | .gridFault slot cause => Sys2Proof.Machine.execGridFault slot cause s
  | .probeSend c => Sys2Proof.Machine.execProbeSend c s
  | .probeReceive n => Sys2Proof.Machine.execProbeReceive n s
  | .waitProbeReport n => Sys2Proof.Machine.execWaitProbeReport n s
  | .planeFlip plot => Sys2Proof.Machine.execPlaneFlip plot s
  | .loaderGo w plot => Sys2Proof.Machine.execLoaderGo w plot s
  | .exitNoticeArrive src => Sys2Proof.Machine.execExitNoticeArrive src s
  | .noticeDeliveryFailure die cause => Sys2Proof.Machine.execNoticeDeliveryFailure die cause s
  | .gleanerServe die ext => Sys2Proof.Machine.execGleanerServe die ext s
  | .fillRequestReraise c => Sys2Proof.Machine.execFillRequestReraise c s
  | .gleanExpand die => Sys2Proof.Machine.execGleanExpand die s
  | .acceptanceRequest die port ext => Sys2Proof.Machine.execAcceptanceRequest die port ext s
  | .hotExpertWindowStart die => Sys2Proof.Machine.execHotExpertWindowStart die s
  | .caporeqGo w g v => Sys2Proof.Machine.execCaporeqGo w g v s
  | .laneFailure g lane => Sys2Proof.Machine.execLaneFailure g lane s
  | .capoDrainBegin g => Sys2Proof.Machine.execCapoDrainBegin g s
  | .capoDrainComplete g => Sys2Proof.Machine.execCapoDrainComplete g s
  | .capoDrainLimit g => Sys2Proof.Machine.execCapoDrainLimit g s
  | .capoWithdrawComplete g => Sys2Proof.Machine.execCapoWithdrawComplete g s
  | .capoTrainSuccess g => Sys2Proof.Machine.execCapoTrainSuccess g s
  | .capoTrainFail g => Sys2Proof.Machine.execCapoTrainFail g s
  | .flitReceive g seq good last => Sys2Proof.Machine.execFlitReceive g seq good last s
  | .flitAckReceive g seq => Sys2Proof.Machine.execFlitAckReceive g seq s
  | .pathNoticeReceive pkg g add => Sys2Proof.Machine.execPathNoticeReceive pkg g add s
  | .pathSetSwitch pkg => Sys2Proof.Machine.execPathSetSwitch pkg s
  | .remoteRequestArrive r => Sys2Proof.Machine.execRemoteRequestArrive r s
  | .remoteReplyArrive tag r => Sys2Proof.Machine.execRemoteReplyArrive tag r s
  | .retryResponse tag => Sys2Proof.Machine.execRetryResponse tag s
  | .requestTimeout tag => Sys2Proof.Machine.execRequestTimeout tag s
  | .hostBar2Access addr data len => Sys2Proof.Machine.execHostBar2Access addr data len s
  | .hostBar4Fill addr data => Sys2Proof.Machine.execHostBar4Fill addr data s
  | .ownclaimClaim m => Sys2Proof.Machine.execOwnclaimClaim m s
  | .ownclaimHandover m target => Sys2Proof.Machine.execOwnclaimHandover m target s
  | .ownclaimAccept m => Sys2Proof.Machine.execOwnclaimAccept m s
  | .ownclaimRelease m => Sys2Proof.Machine.execOwnclaimRelease m s
  | .handoverLapse => Sys2Proof.Machine.execHandoverLapse s
  | .ownerChannelFail m => Sys2Proof.Machine.execOwnerChannelFail m s
  | .heartbeatWrite v => Sys2Proof.Machine.execHeartbeatWrite v s
  | .heartbeatTimeout => Sys2Proof.Machine.execHeartbeatTimeout s
  | .packageNumberAssign n routes => Sys2Proof.Machine.execPackageNumberAssign n routes s
  | .quoteNonceWrite w nonce => Sys2Proof.Machine.execQuoteNonceWrite w nonce s
  | .cfgcmdStore w v => Sys2Proof.Machine.execCfgcmdStore w v s
  | .cfgcmdStoreComplete nvOk => Sys2Proof.Machine.execCfgcmdStoreComplete nvOk s
  | .rctlReset w v => Sys2Proof.Machine.execRctlReset w v s
  | .packageReset failing => Sys2Proof.Machine.execPackageReset failing s
  | .clockThrottleStep => Sys2Proof.Machine.execClockThrottleStep s
  | .clockStepUp => Sys2Proof.Machine.execClockStepUp s
  | .overtempReset => Sys2Proof.Machine.execOvertempReset s
  | .rootTableWrite w tenant v => Sys2Proof.Machine.execRootTableWrite w tenant v s
  | .pinMaskWrite w slice v => Sys2Proof.Machine.execPinMaskWrite w slice v s
  | .classTemplateWrite w n off v => Sys2Proof.Machine.execClassTemplateWrite w n off v s
  | .groupTableWrite w die entry off v => Sys2Proof.Machine.execGroupTableWrite w die entry off v s
  | .windowTableWrite w n w0 w1 => Sys2Proof.Machine.execWindowTableWrite w n w0 w1 s
  | .hxwinWrite w die v => Sys2Proof.Machine.execHxwinWrite w die v s
  | .gleanerRegionWrite w n words => Sys2Proof.Machine.execGleanerRegionWrite w n words s
  | .routingDirectoryWrite w n w0 w1 => Sys2Proof.Machine.execRoutingDirectoryWrite w n w0 w1 s
  | .acceptancePortWrite w die port w0 w1 => Sys2Proof.Machine.execAcceptancePortWrite w die port w0 w1 s
  | .errorRecordClear w off v => Sys2Proof.Machine.execErrorRecordClear w off v s
  | .mgmtRegisterWrite w off v => Sys2Proof.Machine.execMgmtRegisterWrite w off v s
  | .headerAloneBundle h => Sys2Proof.Machine.execHeaderAloneBundle h s
  | .instructionFetchFault addr => Sys2Proof.Machine.execInstructionFetchFault addr s
  | .managementCoreAccess addr data len => Sys2Proof.Machine.execManagementCoreAccess addr data len s
  | .managementFlush slices tenant => Sys2Proof.Machine.execManagementFlush slices tenant s
  | .loaderFlipRequest w plot => Sys2Proof.Machine.execLoaderFlipRequest w plot s

end Sys2Proof.Machine
end

