-- ==== Sys2Proof/Machine/Issue.lean ====
section
/-! DEFINITION. The issue of bundles by a tiller: selection (R318), fetch, the issue check (R61, R331), the slots in commit
order (R64 to R69), and the bundle's end (R28, R55, R60, R291, R332, R333). -/

namespace Sys2Proof.Machine

/-! ## The slots of a bundle -/

/-- The slots of a bundle from slot `j0` on with their words: present syllables, and valid held ones where the slot is
absent (R52, R66, R69). -/
def visitsFrom (h : Header) (ws : List Word) (hold : Vector Hold 8) (j0 : Nat) : List (Nat × Word) :=
  (List.range 8).filterMap (fun j =>
    if j < j0 then none
    else if h.present.getLsbD j then some (j, ws.getD ((presentSlots h.present).idxOf j) 0)
    else if (hold.getD j ⟨false, 0⟩).valid then some (j, (hold.getD j ⟨false, 0⟩).word)
    else none)

/-- Whether a syllable names a tile that the task does not hold (R62). -/
def Task.lacksTile (t : Task) (ks : List Kind) (x : Syl) : Bool :=
  (List.range 5).any (fun j => ks.getD j .z == .t && t.job.tiles.length ≤ (x.field j).toNat)

/-- The instruction of a slot, or none where it raises the illegal-syllable fault (R62, R70). -/
def Task.slotInstr (t : Task) (j : Nat) (w : Word) : Option Instr :=
  match decodeSyl (slotClass j) w with
  | .error _ => none
  | .ok i => if t.lacksTile (kindsOf (slotClass j) (opcode w).toNat) (unpack w) then none else some i

/-- The V slots that issue in the second cycle: those from which on the running sum of widths passes 2,048 bits (R67). -/
def lateSlots : List (Nat × Word) → Nat → List Nat
  | [], _ => []
  | (j, w) :: rest, sum =>
    if slotClass j == .V then
      let n := sum + vecWidth (unpack w)
      if 2048 < n then j :: lateSlots rest n else lateSlots rest n
    else lateSlots rest sum

/-- The largest STALL of the syllables, which the V class has not (R56, R60). -/
def maxStall (vs : List (Nat × Word)) : Nat :=
  (vs.map (fun v => if slotClass v.1 == .V then 0 else (unpack v.2).st.toNat)).foldl max 0

/-! ## The issue check (R61, R331) -/

/-- What the visit of the fields finds: what the bundle starts, why it does not issue, or the slot whose fault stops the
visit. -/
inductive Verdict where
  | pass (w : Need)
  | block (slot : Nat) (why : Awaits)
  | fault (slot : Nat) (w : Need)
deriving DecidableEq, Repr

/-- The visit of the fields of the syllables that execute, in commit order, to the first failure (R61, R80). A word that is no
instruction ends it, so that what later slots lack is not awaited before the slots in front of it commit (DESIGN CHOICE, log
entry 48). -/
def Task.survey (t : Task) : List (Nat × Word) → Need → Verdict
  | [], w => .pass w
  | (j, word) :: rest, w =>
    let c := slotClass j
    let x := unpack word
    let opc := (opcode word).toNat
    if (t.slotInstr j word).isNone then .fault j w
    else if !t.regs.guard x then t.survey rest w
    else
      match t.issueCheck [] c opc (usedKinds c opc x) x w with
      | .ok w1 => t.survey rest w1
      | .error (.block why) => .block j why
      | .error _ => .fault j w

/-- A slot put on the stage. -/
def State.atSlot (s : State) (j : Nat) : State :=
  { s with stage := { s.stage with slot := j, second := s.stage.late.contains j, halt := .run } }

/-- The first wait of a syllable's own among the slots, each of them tried behind those before it: a queue without room, a
map, a barrier and the like. A syllable that faults or keeps the stage when it executes waits for nothing here. -/
def State.firstWait : List (Nat × Word) → State → Option Halt
  | [], _ => none
  | (j, w) :: rest, s =>
    match s.cur.slotInstr j w with
    | none => none
    | some i =>
      match exec i (s.atSlot j) with
      | .next s1 =>
        match s1.stage.halt with
        | .run => s1.firstWait rest
        | .block why => some (.block why)
        | .stall => some .stall
        | _ => s.firstWait rest
      | _ => none

/-- Whether the results in flight and those of the bundle pass 24 (R331). -/
def Task.overfull (t : Task) (w : Need) : Bool :=
  w.results != 0 && 24 < t.flow.inflight.length + t.flow.latches.length + w.results

/-- The issue check of a whole bundle on the stage: the first failure in commit order, or none. -/
def State.issueStop (s : State) (vs : List (Nat × Word)) : Option Halt :=
  match s.cur.survey vs Need.zero with
  | .block j why => (s.firstWait (vs.filter (fun v => v.1 < j))).orElse (fun _ => some (.block why))
  | .pass w => (s.firstWait vs).orElse (fun _ => if s.cur.overfull w then some .stall else none)
  | .fault j w =>
    (s.firstWait (vs.filter (fun v => v.1 < j))).orElse (fun _ => if s.cur.overfull w then some .stall else none)

/-! ## The slots in commit order (R64, R68) -/

/-- The charges that the slots to come make at the bundle's issue, as far as none of them faults (R288). -/
def State.charges : List (Nat × Word) → State → Nat × Nat
  | [], _ => (0, 0)
  | (j, w) :: rest, s =>
    match s.cur.slotInstr j w with
    | none => (0, 0)
    | some i =>
      match exec i (s.atSlot j) with
      | .next s1 =>
        match s1.stage.halt with
        | .run =>
          let r := s1.charges rest
          (s1.stage.paid.1 - s.stage.paid.1 + r.1, s1.stage.paid.2 - s.stage.paid.2 + r.2)
        | .suspended =>
          let r := s.charges rest
          (s1.stage.ahead.bi + r.1, s1.stage.ahead.bm + r.2)
        | _ => (0, 0)
      | _ => (0, 0)

/-- A bundle that keeps the stage at its issue: the slots to come are charged now (R288). -/
def State.prepaid (s : State) (rest : List (Nat × Word)) : State :=
  if s.stage.checked then s
  else
    let u := State.charges rest { s with stage := { s.stage with ahead := Ahead.zero, range := none } }
    s.advance u.1 u.2

/-- The slots executed up to the first that does not take effect. A form that keeps the stage leaves the slots to come in
`rest`: a range form those behind it, which its last group commits, another form itself too. -/
def State.runSlots : List (Nat × Word) → State → Host.Outcome State Fault Refusal
  | [], s => .next s
  | (j, w) :: rest, s =>
    match s.cur.slotInstr j w with
    | none => .next ((s.atSlot j).takeFault 1 w none)
    | some i =>
      match exec i (s.atSlot j) with
      | .next s1 =>
        match s1.stage.halt with
        | .run => s1.runSlots rest
        | .suspended =>
          let left : List (Nat × Word) := if s1.stage.range.isSome then rest else (j, w) :: rest
          let s2 := s1.prepaid rest
          .next { s2 with stage := { s2.stage with rest := left } }
        | .stopped => .next s1
        | _ =>
          if s1.stage.checked then .next { s1 with stage := { s1.stage with halt := .suspended, rest := (j, w) :: rest } }
          else .next s1
      | .fault f => .fault f
      | .refused r => .refused r

/-! ## The start of a bundle -/

/-- The stage at the first issue cycle of a task's bundle. -/
def State.openStage (s : State) (uid : Nat) (t : Task) : State :=
  let g : Stage := { Stage.zero with
    uid := uid
    cycle := s.cycle
    regs := t.regs
    seq := t.q.seq
    csr := t.csr
    plotCounters := (s.plot t.plot).counters
    dieCounters := (s.die t.die).counters
    taskCounters := t.job.counters
    hot := (s.die t.die).hot
    dirs := s.directories }
  { s with stage := g }

/-- A task as its bundle finds it: outside a handler its latches count from now, and what is due lands (R81, R331). -/
def Task.opened (t : Task) (now : Nat) : Task := (if t.flow.inHandler then t else t.arm now).settle now

/-- The slot at which the visit of the fields finds a fault (R61). -/
def Verdict.doomed : Verdict → Option Nat
  | .fault j _ => some j
  | _ => none

/-- The bundle's header and shape on the stage: `vs` are the slots to execute, `all` every present and repeating one, whose
STALL counts at a re-entry too (R60). The slots before SRES, which do not execute again, take no lane groups then (DEDUCED,
log entry 48). -/
def State.shape (s : State) (h : Header) (vs all : List (Nat × Word)) : State :=
  let late := lateSlots vs 0
  { s with stage := { s.stage with
    header := h
    late := late
    doomed := (s.cur.survey vs Need.zero).doomed
    stall := (if late.isEmpty then 0 else 1) + maxStall all } }

/-- The bundle whose words are given, on the opened stage: the state after its slots, with the halt on the stage. -/
def State.runBundle (s : State) (hw : Word) (ws : List Word) : Host.Outcome State Fault Refusal :=
  match decodeHeader hw with
  | .error _ => .next (s.takeFault 1 hw none)
  | .ok h =>
    let t := s.cur
    let vs := visitsFrom h ws t.flow.hold t.flow.resume
    let s1 := s.shape h vs (visitsFrom h ws t.flow.hold 0)
    if vs.isEmpty && t.flow.resume == 0 then exec (.headerAloneBundle hw) s1
    else
      match s1.issueStop vs with
      | some why => .next { s1 with stage := { s1.stage with halt := why } }
      | none => s1.runSlots vs

/-- A late-access record taken before the bundle (R190, R332). -/
def State.lateStop (s : State) (uid : Nat) : State :=
  let s1 := s.takeLate uid
  { s1 with stage := { s1.stage with halt := .stopped } }

/-- The next bundle of a task, from the fetch to its slots (R52, R190). A task whose lease is asked for again issues none but
in a handler (R168). Every word is fetched before the header is judged, so that of an illegal header and a later word that faults
the fetch fault is raised (DESIGN CHOICE, log entry 48). -/
def State.bundle (s : State) (uid : Nat) : Host.Outcome State Fault Refusal :=
  match s.task? uid with
  | none => .next s
  | some t0 =>
    let t := t0.opened s.cycle
    let s1 := (s.setTask uid t).openStage uid t
    if !t.flow.lates.isEmpty && !t.flow.inHandler then .next (s1.lateStop uid)
    else if t.job.lease.isSome && !t.flow.inHandler then .next { s1 with stage := { s1.stage with halt := .block .acre } }
    else
      match t.amoLine with
      | some l => .next { s1 with stage := { s1.stage with halt := .block (.line l) } }
      | none =>
        match s1.fetchHead t t.pc.toNat with
        | .error e => s1.unfetched e
        | .ok (h, s2) =>
          match State.fetchWords t (presentSlots (h.setWidth 8)).length (t.pc.toNat + 8) s2 with
          | .error e => s1.unfetched e
          | .ok (ws, s3) => s3.runBundle h ws

/-! ## The end of a bundle -/

/-- The LEND action of level `n` (R55): the task and the next address. -/
def Task.lend (t : Task) (n : Nat) (next : Word) : Task × Word :=
  if n = 0 then (t, next)
  else
    let c := (t.csr.loopc.getD (n - 1) 0).toNat
    let put (v : Nat) : Task := { t with csr := { t.csr with loopc := t.csr.loopc.setIfInBounds (n - 1) (BitVec.ofNat 64 v) } }
    if 1 < c then (put (c - 1), t.flow.loopStart.getD (n - 1) 0) else (put 0, next)

/-- The task behind its bundle: where it goes on, with hold state cleared by a taken branch (R65), LEND performed (R55), and
`end` and RETT as their entries say (R113, R333). -/
def Task.after (t : Task) (g : Stage) : Task :=
  let t1 : Task := { t with phase := .ready, flow := { t.flow with resume := 0, again := false } }
  if g.ending then { t1 with phase := .ended }
  else if g.returning then t1.leaveHandler
  else
    match g.branch with
    | some a => { t1 with pc := a, flow := { t1.flow with hold := noHold } }
    | none =>
      let e := t1.lend g.header.lend.toNat (g.skip.getD (t.pc + BitVec.ofNat 64 g.length))
      { e.1 with pc := e.2 }

/-- Held cycles and one bundle counted (R28, R300); a yield-point bundle clears YPCNT at its issue. -/
def Task.counted (t : Task) (yp : Bool) (held : Nat) : Task :=
  let t1 := (if yp then { t with csr := { t.csr with ypcnt := 0 } } else t).count held
  { t1 with job := t1.job.bump 0 1 }

/-- A tiller's stage is free again from a cycle on. -/
def State.freeFrom (s : State) (tl now : Nat) : State := s.setTiller tl { s.tiller tl with freeAt := now }

/-- Where a task stands after a bundle that has committed whole: YPMAX first, then a trap, then the yield, then an atomic
that it awaits (R85, R201, R291, R332, R333). -/
def State.boundary (s : State) (g : Stage) (yield : Bool) (at_ : Word) (now : Nat) : State :=
  match s.task? g.uid with
  | none => s
  | some t =>
    if getBits t.csr.ypmax 0 32 < getBits t.csr.ypcnt 0 32 then s.abortGang g.uid 29 0 t.csr.faddr.toNat
    else if g.ending then s
    else
      match g.trapAfter with
      | some a => (s.setTask g.uid (t.landDue now)).trapTask g.uid ⟨30, 0, t.pc, none, some a⟩ now
      | none =>
        if yield && tswYpend t.csr.tsw then s.quiesce g.uid at_ t.pc
        else
          match t.amoLine with
          | some l => s.setTask g.uid { t with phase := .blocked (.line l) }
          | none => s

/-- The end of a bundle whose slots have all committed: the charge of a bundle in which nothing executes (R287), the held
cycles (R28, R60), the next address, and the boundary. Before a RETT restores registers, what is due by its end lands. -/
def State.endBundle (s : State) : State :=
  let g := s.stage
  let s1 := if g.charged || s.cur.flow.resume != 0 then s else s.pay 1 0
  match s1.task? g.uid with
  | none => s1
  | some t =>
    let held := max (s.cycle - g.cycle) g.stall + 1 + g.extra
    let yp := g.header.yp && !t.flow.inHandler
    let t1 := if g.returning then t.landDue (g.cycle + held) else t
    let s2 := (s1.setTask g.uid ((t1.counted yp held).after g)).freeFrom t.tiller (g.cycle + held)
    s2.boundary g yp t.pc (g.cycle + held)

/-! ## What becomes of a bundle -/

/-- The stage put away. -/
def State.closeStage (s : State) : State := { s with stage := Stage.zero }

/-- A task that waits at the barrier arrives there once its stores have performed (R111). -/
def Task.awaits (why : Awaits) (t : Task) : Task :=
  { t with
    phase := .blocked why
    job := { t.job with blockedFor := 0, arrived := t.job.arrived || (why == .barrier && t.barReady) } }

/-- A bundle that does not issue: its task has held the stage for the cycle (R28, R61). -/
def State.noIssue (s : State) (uid : Nat) (f : Task → Task) : State :=
  match s.task? uid with
  | none => s
  | some t =>
    (s.setTask uid (f (t.count 1))).freeFrom t.tiller (s.cycle + 1)

/-- A bundle whose task keeps the stage until events complete a form (R142, R261, R333). -/
def State.keepHeld (s : State) (uid tl : Nat) : State :=
  { s.onTask uid (fun t => { t with phase := .issuing }) with held := Tab.set s.held tl s.stage }

/-- A fault in the second cycle of a bundle: the first is counted (R28, R67). -/
def State.stopped (s : State) : State :=
  s.onTask s.stage.uid (fun t => if s.stage.second && s.cycle == s.stage.cycle then t.count 1 else t)

/-- A bundle of a task of tiller `tl` brought to its end, given the state before it and what its slots came to. It stays on the
stage until the writes of its forms are at home (R261, R282). -/
def State.conclude (s : State) (uid tl : Nat) (r : Host.Outcome State Fault Refusal) :
    Host.Outcome State Fault Refusal :=
  match r with
  | .next s1 =>
    match s1.stage.halt with
    | .run => .next (if s1.stage.sent.any s1.unacked then (s1.keepHeld uid tl).closeStage else s1.endBundle.closeStage)
    | .stopped => .next s1.stopped.closeStage
    | .suspended => .next (s1.keepHeld uid tl).closeStage
    | .block why => .next (s.noIssue uid (Task.awaits why))
    | .stall => .next (s.noIssue uid (fun t => { t.opened s.cycle with phase := .issuing }))
  | .fault f => .fault f
  | .refused x => .refused x

/-- A task of a tiller issues its next bundle. -/
def State.issue (s : State) (uid tl : Nat) : Host.Outcome State Fault Refusal := s.conclude uid tl (s.bundle uid)

/-- A bundle that holds a tiller's stage goes on behind a form that kept it: its slots to come have passed the issue
check. A range form that still runs is left to its groups. -/
def State.resumeHeld (s : State) (tl : Nat) (g : Stage) : Host.Outcome State Fault Refusal :=
  if g.halt == .suspended && g.range.isSome then .next s
  else
    let s0 := { s with held := Tab.erase s.held tl, stage := { g with halt := .run, checked := true, rest := [] } }
    let s1 := s0.onTask g.uid (fun t => t.settle s.cycle)
    s1.conclude g.uid tl (s1.runSlots g.rest)

/-! ## Selection (R318) -/

/-- Effective priority of a task (R315, R318). -/
def Task.effective (t : Task) : Nat := min t.job.ceil (t.job.prio + t.job.wait / 2 ^ 20)

/-- The order of a local context behind the one that was selected last. -/
def behind (last ctx : Nat) : Nat := (ctx % 8 + 15 - last) % 8

/-- The better of two tasks of a tiller. -/
def betterTask (last : Nat) (a b : Nat × Task) : Nat × Task :=
  if a.2.effective < b.2.effective then b
  else if b.2.effective < a.2.effective then a
  else if behind last b.2.no < behind last a.2.no then b
  else a

/-- The tasks on a tiller's contexts. -/
def State.onTiller (s : State) (tl : Nat) : List (Nat × Task) := s.tasks.filter (fun e => e.2.ctx.any (fun c => c / 8 == tl))

/-- The Ready task that a tiller selects. -/
def State.select (s : State) (tl : Nat) : Option (Nat × Task) :=
  match (s.onTiller tl).filter (fun e => e.2.phase == .ready) with
  | [] => none
  | e :: es => some (es.foldl (betterTask (s.tiller tl).last) e)

/-- The task that holds a tiller's stage without a bundle under way: it waits for room, for a handler's entry or for a
yield's conditions (R291, R329, R331). -/
def State.holder (s : State) (tl : Nat) : Option (Nat × Task) :=
  (s.onTiller tl).find? (fun e => e.2.phase == .issuing || e.2.phase == .trapping || e.2.phase == .quiescing)

/-- One cycle of a tiller's issue stage: where it is free, a Ready context is selected and issues. -/
def State.tillerStep (s : State) (tl : Nat) : Host.Outcome State Fault Refusal :=
  if s.cycle < (s.tiller tl).freeAt then .next s
  else
    match Tab.get? s.held tl with
    | some g => s.resumeHeld tl g
    | none =>
      match s.holder tl with
      | some (uid, t) =>
        if t.phase == .issuing then s.issue uid tl
        else if t.phase == .trapping && !t.q.pairWaits then .next (s.finishTrap uid s.cycle)
        else .next s
      | none =>
        match s.select tl with
        | none => .next s
        | some (uid, t) =>
          let s1 := s.setTiller tl { s.tiller tl with last := t.no % 8 }
          (s1.onTask uid (fun t => { t with job := { t.job with wait := 0 } })).issue uid tl

/-! ## A cycle passes -/

/-- A Blocked task at the end of a cycle: Ready where its bundle would issue or stop otherwise, or for a late-access record;
else Blocked on what it awaits now (R19, R61). A member that takes a late-access fault at its barrier stays arrived (DESIGN
CHOICE, log entry 48). -/
def State.woken (s : State) (uid : Nat) (t : Task) : Task :=
  match t.phase with
  | .blocked _ =>
    match s.bundle uid with
    | .next s1 =>
      match s1.stage.halt with
      | .block why =>
        { t with
          phase := .blocked why
          job := { t.job with arrived := t.job.arrived || (why == .barrier && t.barReady) } }
      | _ => { t with phase := .ready, job := { t.job with blockedFor := 0 } }
    | _ => t
  | _ => t

/-- The counts of a cycle (R28, R301, R318): Ready and not selected, Blocked, or waiting in the issue stage. -/
def State.ticked (s : State) (t : Task) : Task :=
  if s.holds1 t then t
  else
    match t.phase with
    | .ready => { t with job := { t.job with wait := t.job.wait + 1 } }
    | .blocked _ => { t with job := ({ t.job with blockedFor := t.job.blockedFor + 1 } : Job).bump 2 1 }
    | .trapping | .quiescing => if (s.tiller t.tiller).freeAt ≤ s.cycle then t.count 1 else t
    | _ => t

/-- The age of a record: 0 where a group of it was placed in the cycle, else one more where its next group was placeable (R315). -/
def State.aged (s : State) (x : Slot) : Slot :=
  if x.placedAt == s.cycle + 1 then { x with wait := 0 }
  else if s.pending x && (List.range 128).any (s.placeable x) then { x with wait := x.wait + 1 } else x

/-- A response timer runs unless it is stopped (R354). -/
def Req.ticked (r : Req) : Req := if r.stopped || r.held then r else { r with left := r.left - 1 }

/-- One cycle passes: Blocked tasks are checked again, the counts rise, and what is due at the next cycle lands. -/
def State.pass (s : State) : State :=
  let now := s.cycle + 1
  { s with
    cycle := now
    tasks := Tab.mapVal s.tasks (fun uid t => (s.woken uid (s.ticked t)).settle now)
    slots := Tab.mapVal s.slots (fun _ x => s.aged x)
    fab := { s.fab with reqs := s.fab.reqs.map Req.ticked } }

/-- The end of a cycle: grids that have completed in it are ended, and the cycle passes. -/
def State.tick (s : State) : State := s.endGrids.pass

end Sys2Proof.Machine
end

