-- ==== Sys2Proof/Machine/Background.lean ====
section
/-! DEFINITION. What the hardware does on its own when the agenda names nothing (DESIGN CHOICE, log entry 1): the candidates for the next
event, in a fixed order, and the first that changes the machine. -/

namespace Sys2Proof.Machine

/-- Something that may take place. -/
abbrev Happening := State → Host.Outcome State Fault Refusal

/-- The next state of the first happening that changes the machine. -/
def firstChange : List Happening → State → Option State
  | [], _ => none
  | f :: fs, s =>
    match f s with
    | .next s' => if s' = s then firstChange fs s else some s'
    | _ => firstChange fs s

/-- The first numbers below a length. -/
def upTo (n : Nat) : List Nat := List.range n

/-- The happenings of a task: its accesses, its engines' answers, and its way through a yield or to Done. -/
def taskHappenings (c : Nat) (t : Task) : List Happening :=
  (upTo t.q.loads.length).map (execLoadPerform c) ++
  [execStorePerform c, execStoreBufferWriteback c, execAtomicPerform c, execSyncOpPerform c, execTlbinvComplete c,
   execSigcWrite c, execAmoveFill c, execFillRequestReraise c, execRangeGroupComplete c []] ++
  t.q.streams.flatMap (fun e => [execStreamReadAhead c e.1 [], execStreamWriteBehind c e.1]) ++
  [execYieldTaken c, execContextSaveComplete c, execYieldDistanceFault c]

/-- The happenings of a slot of the slot table: its launch record is read, barriers of its groups complete, and the
dispatchers of the plots it allows look for a group to place. -/
def slotHappenings (n : Nat) (x : Slot) : List Happening :=
  [execLaunchRecordRead n []] ++ x.live.map (fun g => execBarrierComplete n g.1) ++
    (if x.st = 3 then ((upTo 128).filter (fun p => (x.targets p).any x.allows)).map (fun p => execGroupPlace p []) else [])

/-- The happenings of a plot: its Acre, its lease table and its planes. -/
def plotHappenings (p : Nat) : List Happening :=
  [execAcreQuantumEnd p, execAcreCommandExecute p [], execAleaseGrant p] ++ (upTo 8).map (execLeaseEntryFree p) ++
    [execPlaneFlip p]

/-- The happenings of a tiller's Drill. -/
def drillHappenings (tl : Nat) (y : Tiller) : List Happening :=
  [execDrillCommandStart tl []] ++
    y.drill.zipIdx.flatMap (fun d =>
      [execDrillElementTransfer tl d.2 [], execFurrowExecute tl d.2 []] ++ d.1.span.map (execChunkComplete tl d.2))

/-- The happenings of a die: collectives, samplers, notices, the Gleaner and the hot-expert window. -/
def State.dieHappenings (s : State) (d : Nat) (y : Die) : List Happening :=
  y.colls.flatMap (fun e =>
    let g := (if e.started then e else ((s.readColl [] e).toOption.map (·.1)).getD e).part.group
    [execCollectiveInstanceStart g e.inst.toNat [] [], execCollectiveInstanceComplete g e.inst.toNat [] []]) ++
  [execSampleServe d [], execExitNoticeArrive (.own d), execGleanExpand d, execGleanerServe d []] ++
  ((upTo 16).filter (fun p => (s.port d p).1.getLsbD 63 || !y.taken.isEmpty)).map (fun p => execAcceptanceRequest d p []) ++ [execHotExpertWindowStart d]

/-- The happenings of the package edge: requests that wait on an empty line are tried again, timers run out, path sets
switch, and groups go on through a personality operation. -/
def fabricHappenings (s : State) : List Happening :=
  s.fab.inbound.waiting.map execRemoteRequestArrive ++ s.fab.reqs.map (fun r => execRequestTimeout r.tag) ++
    s.fab.paths.map (fun e => execPathSetSwitch e.1) ++
    s.fab.groups.flatMap (fun e =>
      [execCapoDrainBegin e.1, execCapoDrainComplete e.1, execCapoDrainLimit e.1, execCapoWithdrawComplete e.1])

/-- The candidates in their order. Engines that could read another package's memory wait for an event that brings its bytes
(DESIGN CHOICE, log entry 1). -/
def State.happenings (s : State) : List Happening :=
  let alone := s.fab.routes.isEmpty
  let engines := if alone then
      s.plots.flatMap (fun e => plotHappenings e.1) ++ s.tillers.flatMap (fun e => drillHappenings e.1 e.2) ++
        (upTo 4).flatMap (fun d => s.dieHappenings d (s.die d))
    else []
  s.tasks.map (fun e => execTaskDone e.1) ++
  s.tillers.map (fun e s => s.tillerStep e.1) ++
  s.tasks.map (fun e s => s.tillerStep e.2.tiller) ++
  s.tasks.flatMap (fun e => taskHappenings e.1 e.2) ++
  s.slots.flatMap (fun e => slotHappenings e.1 e.2) ++
  engines ++
  s.tasks.map (fun e => execContextResume e.1) ++
  fabricHappenings s ++
  (upTo s.probes.length).map execProbeReceive ++
  [execHandoverLapse, execHeartbeatTimeout]

/-- The reports that the management core finds as a cycle begins, before any task issues in it (R326, R336). -/
def State.coreReports (s : State) : State :=
  (upTo s.reports.length).reverse.foldl (fun s n => match execWaitProbeReport n s with | .next s' => s' | _ => s) s

/-- A cycle passes of its own: the tick, the reports that the core finds, and the wait probes that fall due with it (R336). -/
def State.passCycle (s : State) : State :=
  let s1 := s.tick.coreReports
  s1.tasks.foldl (fun s e => match execProbeSend e.1 s with | .next s' => s' | _ => s) s1

/-- What comes next where the agenda names nothing. -/
def State.background (s : State) : State := (firstChange s.happenings s).getD s.passCycle

end Sys2Proof.Machine
end

