-- ==== Sys2Proof/Machine/Step.lean ====
section
/-! DEFINITION. One step of the machine: the next item of the agenda, or what the hardware does on its own (DESIGN CHOICE, log entry 1). -/

namespace Sys2Proof.Machine

/-- A cached translation dropped by its plot (R186, DESIGN CHOICE, log entry 9). -/
def State.evict (s : State) (plot n : Nat) : State :=
  s.setPlot plot { s.plot plot with tc := (s.plot plot).tc.eraseIdx n }

/-- A word of a plot's row-control store written by the management core (R255): every value is stored (R41). -/
def State.writeRow (s : State) (plot n : Nat) (w : BitVec 32) : State :=
  if s.running && plot < 128 && n < 1024 then s.setPlot plot ((s.plot plot).setRow n w) else s

/-- One item of the agenda. A syllable acts in a bundle alone, so as an event it does nothing. -/
def State.act (s : State) (a : Action) : Host.Outcome State Fault Refusal :=
  match a with
  | .tiller t => s.tillerStep t
  | .event i => if i.syllable.isSome then .next s else exec i s
  | .tick => .next s.tick
  | .evict plot n => .next (s.evict plot n)
  | .row plot n w => .next (s.writeRow plot n w)

/-- One step. -/
def step (s : State) : Host.Outcome State Fault Refusal :=
  match s.agenda with
  | [] => .next s.background
  | a :: rest => State.act { s with agenda := rest } a

/-! ## A program placed from outside (DESIGN CHOICE, log entry 13) -/

/-- The task that runs a bundle placed from outside: context 0, PL 2, full budgets. -/
def fetchTask : Task :=
  { Task.zero with
    ctx := some 0
    csr := { Csrs.zero with tsw := 0x20, bi := BitVec.ofNat 64 maxUnits, bm := BitVec.ofNat 64 maxUnits, ypmax := 13500 } }

/-- The machine with one instruction stored where its next step fetches: tenant 0's tables map virtual address 0 on HBM4E, the
bundle stands there, tiller 0 has one Ready task, and the agenda lets it issue. -/
def State.withFetchWord (s : State) (nbits w : Nat) : State :=
  let bs := toLe 72 (w % 2 ^ nbits)
  let s1 := (((s.store 0x40000000 bs).store 0x100000 (toLe 8 0x200001)).store 0x200000 (toLe 8 0x40000013)).setReg 0x130000 0x100000
  let p := s1.plot 0
  let s2 := s1.setPlot 0 { p with tc := [], active := { p.active with valid := false } }
  let s3 := s2.setTiller 0 { s2.tiller 0 with freeAt := 0 }
  { s3 with
    tasks := Tab.set (s3.tasks.filter (fun e => e.2.tiller != 0)) s3.fresh fetchTask
    held := Tab.erase s3.held 0
    fresh := s3.fresh + 1
    agenda := .tiller 0 :: s3.agenda }

end Sys2Proof.Machine
end

