-- ==== Sys2Proof/Safety.lean ====
section
/-! DEFINITION. What the claims speak of: a syllable ready to execute, what it writes, what an instruction leaves alone, and
the invariant that every step keeps. -/

namespace Sys2Proof.Machine

/-! ## The invariant -/

/-- The memory keeps its canonical form: addresses strictly rising, and no entry equal to what an unlisted address reads
as. -/
def State.Inv (s : State) : Prop := Memory.wf s.mem = true

/-- The byte that memory holds at a physical address. -/
abbrev State.at (s : State) (a : Nat) : Byte := Memory.get s.mem a

/-! ## A syllable ready to execute -/

/-- The syllable `x` of a class and opcode is on the stage with its task, its guard true (R57), the issue check passed
(R61, R80), with its bundle or alone, and its sources read as `g`, which leaves the machine as `s1` (R64). -/
structure Ready (c : Cls) (opc : Nat) (x : Syl) (g : Args) (s s1 : State) : Prop where
  onStage : s.task? s.stage.uid ≠ none
  guard : s.stage.regs.guard x = true
  fits : (s.stage.checked = true ∧ s.stage.doomed ≠ some s.stage.slot) ∨
    (s.stage.checked = false ∧ ∃ w, s.cur.issueCheck s.stage.marked c opc (usedKinds c opc x) x Need.zero = .ok w)
  operands : s.readArgs x (usedKinds c opc x) = .ok (g, s1)

/-- The BI charge of a form without a charge of its own, made (R287, R290). -/
def State.charged (s : State) (c : Cls) (opc : Nat) : State := s.pay (s.costOf c opc Cost.plain).units 0

/-- The word of a syllable. -/
def wordOf (opc : Nat) (x : Syl) : Word := pack (BitVec.ofNat 10 opc) x

/-! ## What a form writes -/

/-- A form whose effect is one `s` register: wherever it is ready it completes, and starts the value that `P` describes
towards the register of field A with its exposed latency. -/
def WritesS (c : Cls) (opc lat : Nat) (i : Syl → Instr) (P : Syl → Args → Regs → Word → Prop) : Prop :=
  ∀ x g s s1 v s2, Ready c opc x g s s1 → P x g s.stage.regs v →
    (s1.charged c opc).putS x.a lat v = .ok s2 → exec (i x) s = .next (s2.commit x (wordOf opc x))

/-- A form whose effect is one predicate. -/
def WritesP (c : Cls) (opc lat : Nat) (i : Syl → Instr) (P : Syl → Args → Regs → Prop) : Prop :=
  ∀ x g s s1 b, Ready c opc x g s s1 → (b = true ↔ P x g s.stage.regs) →
    exec (i x) s = .next (((s1.charged c opc).putP x.a lat b).commit x (wordOf opc x))

/-- A form whose effect is one lane mask. -/
def WritesK (opc : Nat) (i : Syl → Instr) (P : Syl → Args → Regs → Mask → Prop) : Prop :=
  ∀ x g s s1 m, Ready .V opc x g s s1 → P x g s.stage.regs m →
    exec (i x) s = .next (((s1.charged .V opc).putK x.a 2 m).commit x (wordOf opc x))

/-- A form whose effect is one `v` register with its tag. -/
def WritesV (opc lat : Nat) (i : Syl → Instr) (P : Syl → Args → Regs → Vec → Tag → Prop) : Prop :=
  ∀ x g s s1 v t s2, Ready .V opc x g s s1 → P x g s.stage.regs v t →
    (s1.charged .V opc).putReg x.a.toNat lat v t = .ok s2 → exec (i x) s = .next (s2.commit x (wordOf opc x))

/-- A register of `n` elements of a tag, given one by one; the bits above them are zero (R117). -/
def Elements (v : Vec) (t n : Nat) (f : Nat → Nat) : Prop :=
  (∀ j, j < n → elemAt v (tagWidth t) j = fit t (f j)) ∧ v.toNat < 2 ^ (tagWidth t * n)

/-! ## The divider -/

/-- The quotient and the remainder of R95, signed with truncation toward zero; a zero divisor gives all ones and the
dividend. -/
def QuotRem (x y q r : Word) : Prop :=
  if y = 0 then q = BitVec.allOnes 64 ∧ r = x
  else q = BitVec.ofInt 64 (x.toInt.tdiv y.toInt) ∧ r.toInt = x.toInt - x.toInt.tdiv y.toInt * y.toInt

/-- The same, unsigned. -/
def QuotRemU (x y q r : Word) : Prop :=
  if y = 0 then q = BitVec.allOnes 64 ∧ r = x
  else q.toNat * y.toNat + r.toNat = x.toNat ∧ r.toNat < y.toNat

/-- The divider (R95): the destination is marked empty at issue and the value comes 10 cycles later and one more for each
four significant bits of the dividend's magnitude, counted from the first cycle in which the tiller's divider is free; a form with
destination s0 delivers nothing. -/
def Divides (opc : Nat) (i : Syl → Instr) (mag : Word → Nat) (P : Word → Word → Word → Prop) : Prop :=
  ∀ x g s s1 v b, Ready .S opc x g s s1 → P g.b.w g.e.w v → mag g.b.w < 2 ^ b → (b = 0 ∨ 2 ^ (b - 1) ≤ mag g.b.w) →
    let s2 := s1.charged .S opc
    let y := s2.tiller s2.cur.tiller
    let start := max s2.stage.cycle y.divAt
    let s3 := s2.setTiller s2.cur.tiller { y with divAt := start + 1 }
    (x.a = 0 → exec (i x) s = .next (s3.commit x (wordOf opc x))) ∧
    (∀ s4, x.a ≠ 0 → s3.produce .divider x.a.toNat (start + (10 + (b + 3) / 4)) v 0 = .ok s4 →
      exec (i x) s = .next (s4.commit x (wordOf opc x)))

/-! ## A bundle about to issue -/

/-- Tiller `tl` is next on the agenda, its stage free, and the Ready task `uid` is the one it selects. -/
structure Selects (s : State) (tl uid : Nat) (t : Task) (rest : List Action) : Prop where
  next : s.agenda = .tiller tl :: rest
  free : (s.tiller tl).freeAt ≤ s.cycle
  idle : Tab.get? s.held tl = none
  holder : State.holder { s with agenda := rest } tl = none
  select : State.select { s with agenda := rest } tl = some (uid, t)

/-- The machine when a selected task's bundle is fetched: the selection recorded, its wait at zero, what was due landed. -/
def State.fetching (s : State) (tl uid : Nat) (t : Task) (rest : List Action) : State :=
  let s1 := State.setTiller { s with agenda := rest } tl { s.tiller tl with last := t.no % 8 }
  let s2 := s1.onTask uid (fun t => { t with job := { t.job with wait := 0 } })
  let u := ((s2.task? uid).getD Task.zero).opened s2.cycle
  (s2.setTask uid u).openStage uid u

/-- The task of the bundle on the stage finds the words `h :: ws` at its pc, with nothing that stops it before its slots. -/
structure Fetches (s : State) (h : Word) (ws : List Word) (s' : State) : Prop where
  late : s.cur.flow.lates = [] ∨ s.cur.flow.inHandler = true
  lease : s.cur.job.lease = none ∨ s.cur.flow.inHandler = true
  line : s.cur.amoLine = none
  words : ∃ s1, s.fetchHead s.cur s.cur.pc.toNat = .ok (h, s1) ∧
    State.fetchWords s.cur (presentSlots (h.setWidth 8)).length (s.cur.pc.toNat + 8) s1 = .ok (ws, s')

/-! ## Vector forms -/

/-- A form that acts element by element (R117, R118, R120): the tags of B, D and E pass, the result carries the tag of B, a
masked-off element is zero and every other is `f` of the tag and of the elements of B, D and E. A scalar E takes B's tag. -/
def ElementWise (opc lat : Nat) (i : Syl → Instr) (ok : Nat → Nat → Nat → Bool) (f : Nat → Nat → Nat → Nat → Nat) : Prop :=
  WritesV opc lat i (fun x g r v t =>
    let tb := g.b.tag.toNat
    let w := tagWidth tb
    let n := vecWidth x / w
    x.st.toNat ≤ 2 ∧ t = g.b.tag ∧ ok tb g.d.tag.toNat (if scalarE x then tb else g.e.tag.toNat) = true ∧
      Elements v tb n (fun j =>
        if gov (r.getK x.c.toNat) n j then f tb (elemAt g.b.v w j) (elemAt g.d.v w j) (opElem x g w j) else 0))

/-- A compare (R127): each governing bit is that of field C and the relation of the elements; every other bit is zero. -/
def Compares (opc : Nat) (i : Syl → Instr) (ok : Nat → Nat → Nat → Bool) (rel : Nat → Nat → Nat → Prop) : Prop :=
  WritesK opc i (fun x g r m =>
    let tb := g.b.tag.toNat
    let w := tagWidth tb
    let n := vecWidth x / w
    x.st.toNat ≤ 2 ∧ ok tb 0 (if scalarE x then tb else g.e.tag.toNat) = true ∧
      ∀ j, j < 128 → (m.getLsbD j = true ↔
        j < n ∧ gov (r.getK x.c.toNat) n j = true ∧ rel tb (elemAt g.b.v w j) (opElem x g w j)))

/-- The element indices that a mask governs (R118). -/
def governed (m : Mask) (n : Nat) : List Nat := (List.range n).filter (gov m n)

/-- A permute (R136): result element `j` of `n` from the elements of B and E. -/
def Permutes (opc : Nat) (i : Syl → Instr) (ok : Nat → Nat → Bool) (f : Syl → Args → Nat → Nat → Nat → Nat) : Prop :=
  WritesV opc 8 i (fun x g _ v t =>
    let tb := g.b.tag.toNat
    let n := vecWidth x / tagWidth tb
    x.st.toNat ≤ 2 ∧ t = g.b.tag ∧ classA tb = true ∧ ok tb g.e.tag.toNat = true ∧
      Elements v tb n (f x g (tagWidth tb) n))

/-- A form that writes one `s` register from a vector. -/
def Reduces (opc : Nat) (i : Syl → Instr) (P : Syl → Args → Regs → Word → Prop) : Prop := WritesS .V opc 8 i P

/-- A form of R129 to R139 whose result is a register of elements of the tag `t`. -/
def Builds (opc lat : Nat) (i : Syl → Instr) (ok : Syl → Args → Prop) (t : Syl → Args → Tag) (n : Syl → Args → Nat)
    (f : Syl → Args → Regs → Nat → Nat) : Prop :=
  WritesV opc lat i (fun x g r v u =>
    x.st.toNat ≤ 2 ∧ ok x g ∧ u = t x g ∧ Elements v u.toNat (n x g) (f x g r))

/-! ## Registers -/

/-- A general register that is neither s0, a queue port nor a bound stream in the direction asked for (R63). -/
def Task.ordinary (t : Task) (n : Nat) (out : Bool) : Prop :=
  0 < n ∧ n < 128 ∧ n % 64 ≠ 54 ∧ n % 64 ≠ 55 ∧ t.streamAt n out = none

/-- The value of a general register numbered as in R63: the bits of a `v` register, or an `s` register in the low word. -/
def Regs.value (r : Regs) (n : Nat) : Vec := if n < 64 then vec (r.getS n) else r.getV (n - 64)

/-- Where a general register's results land. -/
def regDest (n : Nat) : Dest := if n < 64 then .s n else .v (n - 64)

/-- A task with one more result under way. -/
def Task.under (t : Task) (l : Landing) : Task := { t with flow := { t.flow with inflight := t.flow.inflight ++ [l] } }

/-- A task with a stream binding written. -/
def Task.stream (t : Task) (q : Nat) (st : Stream) : Task := { t with q := { t.q with streams := Tab.set t.q.streams q st } }

/-- Two register files alike but for the general register `n` (R63). -/
def Regs.sameBut (r q : Regs) (n : Nat) : Prop :=
  (∀ m, m < 128 → m ≠ n → r.value m = q.value m ∧ r.fullReg m = q.fullReg m ∧
    (64 ≤ m → r.getVt (m - 64) = q.getVt (m - 64))) ∧ r.p = q.p ∧ r.k = q.k

/-! ## What an instruction leaves alone -/

/-- The device outside the task on the stage is as it was: memory byte for byte, full/empty lines, slice caches, tillers, plots with
their tiles, leases, planes, tables, translation caches and counters, dies, slots, the fabric, management, reports, probes and every
other task. -/
structure SameDevice (s t : State) : Prop where
  bytes : ∀ a, t.at a = s.at a
  empties : t.empties = s.empties
  slices : t.slices = s.slices
  tillers : t.tillers = s.tillers
  plots : t.plots = s.plots
  dies : t.dies = s.dies
  slots : t.slots = s.slots
  fab : t.fab = s.fab
  mgmt : t.mgmt = s.mgmt
  reports : t.reports = s.reports
  probes : t.probes = s.probes
  held : t.held = s.held
  agenda : t.agenda = s.agenda
  cycle : t.cycle = s.cycle
  others : ∀ n, n ≠ s.stage.uid → t.task? n = s.task? n

/-- Every plot is as it was but for its translation cache and the counter of its misses (R186, R300). -/
def SamePlots (s t : State) : Prop :=
  ∀ n, ∃ k, ({ t.plot n with
    tc := (s.plot n).tc, counters := (t.plot n).counters.setIfInBounds 4 k } : Plot) = s.plot n

/-- The control registers are as they were but for the budgets and their exhaustion bits 6 to 8 of TSW (R289). -/
structure SameControl (c d : Csrs) : Prop where
  tsw : ∀ i, i < 64 → i ≠ 6 → i ≠ 7 → i ≠ 8 → d.tsw.getLsbD i = c.tsw.getLsbD i
  rest : { c with tsw := 0, bi := 0, bm := 0 } = ({ d with tsw := 0, bi := 0, bm := 0 } : Csrs)

/-- The task is as it was but for results under way, producers, hold state, its queues, its budgets and its counters: every
register, its pc, its control registers and its exception state are unchanged. -/
structure SameTask (t u : Task) : Prop where
  ctx : u.ctx = t.ctx
  phase : u.phase = t.phase
  pc : u.pc = t.pc
  regs : u.regs = t.regs
  csr : SameControl t.csr u.csr
  loopStart : u.flow.loopStart = t.flow.loopStart
  latches : u.flow.latches = t.flow.latches
  frame : u.flow.frame = t.flow.frame
  inHandler : u.flow.inHandler = t.flow.inHandler
  trap : u.flow.trap = t.flow.trap

/-! ## Forms with an effect of their own -/

/-- A form that, ready and charged, has the effect `E` from the machine to the next: wherever `E` leads somewhere, the form
completes there, with its hold state set as R65 says. -/
def Acts (c : Cls) (opc : Nat) (i : Syl → Instr) (E : Syl → Args → State → State → Prop) : Prop :=
  ∀ x g s s1 s2, Ready c opc x g s s1 → E x g (s1.charged c opc) s2 → exec (i x) s = .next (s2.commit x (wordOf opc x))

/-- A form that is ready and stops at `e`: nothing of its slot takes effect (R68), but that one which keeps the stage is charged at
its issue (R288). -/
def Stops (c : Cls) (opc : Nat) (i : Syl → Instr) (P : Syl → Args → State → Prop) (e : Stop) : Prop :=
  ∀ x g s s1, Ready c opc x g s s1 → P x g (s1.charged c opc) →
    exec (i x) s = .next ((s.owe e ((s1.costOf c opc Cost.plain).units, 0)).stop e (wordOf opc x))

/-- A taken branch of the bundle (R107): its target, and the further cycles for which it holds the issue stage. -/
def State.taken (s : State) (target : Word) (cycles : Nat) : State :=
  { s with stage := { s.stage with branch := some target, extra := s.stage.extra + cycles } }

/-- The address behind the bundle on the stage (R52). -/
def State.behindBundle (s : State) : Word :=
  s.cur.pc + BitVec.ofNat 64 (8 + 8 * (List.range 8).countP (fun j => s.stage.header.present.getLsbD j))

/-- Level `n` set to run from behind the bundle with a count (R110). -/
def State.looping (s : State) (n c : Nat) : State :=
  s.onCur (fun t => { t with
    csr := { t.csr with loopc := t.csr.loopc.setIfInBounds (n - 1) (BitVec.ofNat 64 c) }
    flow := { t.flow with loopStart := t.flow.loopStart.setIfInBounds (n - 1) s.behindBundle } })

/-- The effect of a loop form with count `c` (R110): the body runs `c` times; with a count of zero the headers behind the
bundle are read until one ends the level, and the bundle goes on behind that one after a cycle for each. -/
def Loops (n c : Nat) (s s' : State) : Prop :=
  s.stage.header.lend.toNat ≠ n ∧
    ((c ≠ 0 ∧ s' = s.looping n c) ∨
      (c = 0 ∧ ∃ k a s1, State.scanLoop s.cur n 1024 s.behindBundle.toNat s = .ok (some (k, a), s1) ∧
        s' = (let s2 := s1.onCur (fun t => { t with
                csr := { t.csr with loopc := t.csr.loopc.setIfInBounds (n - 1) 0 }
                flow := { t.flow with loopStart := t.flow.loopStart.setIfInBounds (n - 1) s.behindBundle } })
              ({ s2 with stage := { s2.stage with skip := some (BitVec.ofNat 64 a), extra := s2.stage.extra + k } } : State))))

/-- The entry of the schedule table that phase `j` takes with `rows` live rows (R26, R257): `e c` are the entries of the
phase, present where bit 63 is set. -/
def ScheduleEntry (e : Nat → Word) (rows : Nat) (c : Nat) : Prop :=
  if rows = 0 then c < 8 ∧ (e c).getLsbD 63 = true ∧ ∀ d, d < c → (e d).getLsbD 63 = false
  else
    (c < 7 ∧ (e c).getLsbD 63 = true ∧ rows ≤ 16 * 2 ^ c ∧ ∀ d, d < c → (e d).getLsbD 63 = false ∨ 16 * 2 ^ d < rows) ∨
    (c = 7 ∧ (e c).getLsbD 63 = true ∧ ∀ d, d < 7 → (e d).getLsbD 63 = false ∨ 16 * 2 ^ d < rows)

/-- Bits [55:0] of a word as an address. -/
def address (w : Word) : Word := BitVec.ofNat 64 (w.toNat % 2 ^ 56)

/-- The level that a control register asks for (R83): to read it, to write it; a level of 3 is held by nobody. -/
def csrTable : List (Nat × Nat × Nat) :=
  [(0x00, 0, 1), (0x01, 0, 1), (0x02, 0, 2), (0x03, 0, 2), (0x04, 0, 1), (0x05, 0, 2), (0x06, 0, 0), (0x08, 0, 0),
    (0x09, 0, 0), (0x0A, 0, 0), (0x0B, 0, 0), (0x10, 0, 1), (0x11, 0, 1), (0x12, 0, 1), (0x18, 0, 3), (0x19, 0, 3),
    (0x1A, 0, 3), (0x1B, 0, 2), (0x1C, 0, 2), (0x20, 1, 1), (0x21, 1, 1)]

/-- A CSR write form (R83, R114) at PL at least the write level: the register's fields take `f` of the old word and the
operand, its W1C fields are cleared by `ones`; a write to TSW in a bundle whose charges emptied a budget sets the exhaustion
again (R91). -/
def WritesCsr (opc : Nat) (i : Syl → Instr) (f : Word → Word → Word) (ones : Word → Word) : Prop :=
  Acts .C opc i (fun _ g s s' => ∃ r l, (g.e.w.toNat, r, l) ∈ csrTable ∧ l ≤ s.cur.pl ∧ l < 3 ∧
    (g.e.w = 0x11 → getBits s.cur.csr.spillbase 6 14 + getBits (f s.cur.csr.spillsize g.b.w) 6 14 ≤ 12288) ∧
    let c := s.cur.csr.put g.e.w.toNat (f (s.cur.csr.get g.e.w.toNat) g.b.w) (ones g.b.w)
    s' = s.onCur (fun t => { t with csr := if g.e.w = 0 then c.reExhaust s.stage.paid else c }))

/-! ## Forms with a charge and a wait of their own -/

/-- A form with a charge of its own (R287, R290) that may have to wait: ready, and checked with its whole bundle or free of
the wait, it completes wherever its effect leads somewhere. -/
def Completes (c : Cls) (opc : Nat) (i : Syl → Instr) (cost : Syl → Args → State → Cost × Nat)
    (free : Syl → Args → State → Prop) (E : Syl → Args → State → State → Prop) : Prop :=
  ∀ x g s s1 s2, Ready c opc x g s s1 → s.stage.checked = true ∨ free x g s →
    E x g (s1.pay (s1.costOf c opc (cost x g s1).1).units (cost x g s1).2) s2 →
    exec (i x) s = .next (s2.commit x (wordOf opc x))

/-- The same form where it stops: nothing of its slot takes effect, but the charge of one that keeps the stage (R288). -/
def Halts (c : Cls) (opc : Nat) (i : Syl → Instr) (cost : Syl → Args → State → Cost × Nat)
    (free : Syl → Args → State → Prop) (P : Syl → Args → State → Stop → Prop) : Prop :=
  ∀ x g s s1 e, Ready c opc x g s s1 → s.stage.checked = true ∨ free x g s →
    P x g (s1.pay (s1.costOf c opc (cost x g s1).1).units (cost x g s1).2) e →
    exec (i x) s = .next ((s.owe e ((s1.costOf c opc (cost x g s1).1).units, (cost x g s1).2)).stop e (wordOf opc x))

/-- A plain form that suspends its bundle, blocks it, or faults at `e` before it changes anything. -/
def unconditional : Syl → Args → State → Prop := fun _ _ _ => True

/-- The charge of a plain form. -/
def plainCost : Syl → Args → State → Cost × Nat := fun _ _ _ => (Cost.plain, 0)

/-! ## Traps -/

/-- No load of a queue waits to perform, and no store address has its data (R329, R333). -/
def Queues.settled (q : Queues) : Prop :=
  (∀ a ∈ q.loads, ∃ n, a.kind = .marker n) ∧ (countSta q.stores = 0 ∨ q.sdata = [])

/-- A task `t` that has entered its handler at `entry` for the fault `r` as `u` (R329): registers as they were, the frame
saved, results under way in the latches, the four access queues empty, hold state clear, FCODE and SRES of the fault, PL at
least 1, FSYL and FADDR where the fault gives them. -/
structure Entered (t : Task) (r : TrapReq) (entry : Word) (u : Task) : Prop where
  pc : u.pc = entry
  phase : u.phase = .ready
  regs : u.regs = t.regs
  inHandler : u.flow.inHandler = true
  hold : u.flow.hold = noHold
  inflight : u.flow.inflight = []
  fcode : tswFcode u.csr.tsw = r.code % 32
  sres : tswSres u.csr.tsw = r.slot % 16
  pl : tswPl u.csr.tsw = max t.pl 1
  fsyl : u.csr.fsyl = r.fsyl.getD t.csr.fsyl
  faddr : u.csr.faddr = (r.faddr.map address).getD t.csr.faddr
  savedPc : u.flow.frame.pc = r.pc
  savedPl : tswPl u.flow.frame.tsw = t.pl
  savedS : ∀ i, i < 6 → u.flow.frame.s.getD i 0 = t.regs.getS (48 + i)
  savedP : u.flow.frame.p7 = t.regs.getP 7
  savedLoops : u.flow.frame.loopc = t.csr.loopc ∧ u.flow.frame.loopStart = t.flow.loopStart
  savedHold : u.flow.frame.hold = t.flow.hold
  savedQueues : u.flow.frame.ldata = t.q.ldata ∧ u.flow.frame.stores = t.q.stores ∧ u.flow.frame.sdata = t.q.sdata ∧
    u.flow.frame.loads = t.q.loads
  queues : u.q = { t.q with
    loads := [], ldata := [], stores := [], sdata := [], gets := t.q.gets.filter (fun g => 2 ^ 53 ≤ g.pa), parked := t.q.parked.filter (fun e => 2 ^ 60 ≤ e.1) }

/-- A fault reaches a task that has its handler free and no paired store waiting (R327, R329). -/
def Task.traps (s : State) (t : Task) (entry : Word) : Prop :=
  t.flow.inHandler = false ∧ s.handlerEntry t = some entry ∧ (countSta t.q.stores = 0 ∨ t.q.sdata = [])

/-- The bytes of the save area of a context that a trap entry writes: the frame and the queues, where the context has a save
region (R329, R335). -/
def State.frameAt (s : State) (ctx a : Nat) : Prop :=
  s.saveBase ctx ≠ 0 ∧ s.saveBase ctx + 0x3A80 ≤ a ∧ a < s.saveBase ctx + 0x5F00

/-- A machine in which the task `uid`, `t` before, has entered its handler, and no byte of memory outside its frame and no other
task has changed. -/
def State.trapped (s : State) (uid : Nat) (t : Task) (r : TrapReq) (entry : Word) (s' : State) : Prop :=
  (∃ u, s'.task? uid = some u ∧ Entered t r entry u) ∧ (∀ a, ¬ s.frameAt t.no a → s'.at a = s.at a) ∧
    ∀ n, n ≠ uid → s'.task? n = s.task? n

/-- A task that an abort has taken away: it is gone, or it is Aborted, off its context, and only what it had written or
started completes, the store buffer and a running Acre command (R169, R224). -/
def State.gone (s : State) (uid : Nat) : Prop :=
  ∀ u, s.task? uid = some u → u.phase = .aborted ∧ u.ctx = none ∧ (u.q.buffer ≠ [] ∨ (s.plot u.plot).keeps uid = true)

/-- The members of a gang that are still to abort, each listed under its own number. -/
def State.membersOf (s : State) (t : Task) (e : Nat × Task) : Prop :=
  e ∈ s.gang t ∧ s.task? e.1 = some e.2 ∧ e.2.phase ≠ .aborted

/-- A gang that has aborted (R25, R337): every member is taken away, and a report names the first. -/
def State.aborted (s : State) (t : Task) (code cause addr : Nat) (s' : State) : Prop :=
  (∀ e, s.membersOf t e → s'.gone e.1) ∧ Report.abort t.job.grid t.job.group t.no code cause (BitVec.ofNat 64 addr) ∈ s'.reports

/-- No producer of s48 to s53 is outstanding, so that the return may restore them (R80, R333). -/
def Task.restorable (t : Task) : Prop := ∀ n, 48 ≤ n → n ≤ 53 → t.pending n = false

/-- The cycles that the bundle on the stage has held it when it ends (R28, R60). -/
def Stage.heldFor (g : Stage) (now : Nat) : Nat := max (now - g.cycle) g.stall + 1 + g.extra

/-- The charged bundle of task `t` on the stage comes to its end with the task as `u`: its cycles counted, within YPMAX (R28, R85,
R331). -/
structure State.bundleEnds (s : State) (t u : Task) : Prop where
  task : s.task? s.stage.uid = some t
  charged : s.stage.charged = true
  counted : u = (if s.stage.returning then t.landDue (s.stage.cycle + s.stage.heldFor s.cycle) else t).counted
    (s.stage.header.yp && !t.flow.inHandler) (s.stage.heldFor s.cycle)
  within : u.csr.ypcnt.toNat % 2 ^ 32 ≤ u.csr.ypmax.toNat % 2 ^ 32

/-- The registers of a resumed task from its image at `a` and the registers `r` that were saved (R87, R335). -/
structure ResumedRegs (s : State) (a : Nat) (r u : Regs) : Prop where
  scalar : ∀ i, 0 < i → i < 64 → u.getS i = if (s.word (a + 0x18)).getLsbD i then s.word (a + 0x1880 + 8 * i) else 0
  vector : ∀ i, i < 64 → u.getV i =
    if (s.word (a + 0x20)).getLsbD i then BitVec.ofNat 1024 (leNat (s.bytes (a + 0x1A80 + 128 * i) 128)) else 0
  tags : ∀ i, i < 64 → (u.getVt i).toNat = if (s.word (a + 0x20)).getLsbD i then (s.at (a + 0x1C0 + i)).toNat % 64 else 0
  full : u.fes = s.word (a + 0x178) ||| ~~~s.word (a + 0x18) ∧ u.fev = s.word (a + 0x180) ||| ~~~s.word (a + 0x20)
  rest : u.p = r.p ∧ u.k = r.k

/-- The control registers of a resumed task from its image at `a`: bits 7 to 9 of TSW as R293 says, PL and SHV as the task has
them, TASKID and SPILLBASE as its context has them, and every other as the image has it (R335). -/
structure ResumedCsrs (s : State) (a : Nat) (c : Csrs) : Prop where
  word : ∀ n r l, (n, r, l) ∈ csrTable → n ≠ 0 → n ≠ 0x10 → n ≠ 0x18 → c.get n = s.word (a + 0x40 + 8 * n) &&& csrMask n
  tsw : ∀ i, i < 16 → i ≠ 4 → i ≠ 5 → i ≠ 7 → i ≠ 8 → i ≠ 9 → i ≠ 10 → c.tsw.getLsbD i = (s.word (a + 0x40)).getLsbD i
  bexh : c.tsw.getLsbD 7 = true ↔ (s.word (a + 0x40)).getLsbD 7 = true ∧ (s.word (a + 0x50)).toNat % 2 ^ 48 = 0
  mexh : c.tsw.getLsbD 8 = true ↔ (s.word (a + 0x40)).getLsbD 8 = true ∧ (s.word (a + 0x58)).toNat % 2 ^ 48 = 0
  preq : c.tsw.getLsbD 9 = false

/-! ## Memory forms -/

/-- A memory form of the A class (R193, R208): it waits while an invalidation of its task is outstanding, and it charges
`bm` BM units. -/
def Accesses (opc : Nat) (i : Syl → Instr) (bm : Syl → Args → State → Nat) (E : Syl → Args → State → State → Prop) : Prop :=
  Completes .A opc i (fun x g s => (Cost.plain, bm x g s)) (fun _ _ s => s.cur.invalidating = false) E

/-- Where a memory form faults. -/
def AccessFaults (opc : Nat) (i : Syl → Instr) (bm : Syl → Args → State → Nat) (P : Syl → Args → State → Stop → Prop) : Prop :=
  Halts .A opc i (fun x g s => (Cost.plain, bm x g s)) (fun _ _ s => s.cur.invalidating = false) P

/-- The address of a load or store: s[B] and the sign-extended offset of field C (R194). -/
def ea (g : Args) (x : Syl) : Word := g.b.w + x.c.signExtend 64

/-- A load-data entry reserved (R195). -/
def State.reserveLoad (s : State) (vec : Bool) (tag : Tag) : State :=
  (s.onCur (fun t => { t with q := { t.q with ldata := t.q.ldata ++ [⟨s.fresh, vec, none, tag⟩] } })).mint

/-- What stops an access of `len` bytes at `va`: an address that is not a multiple of `align`, or a failed check of R184, each
with the address that it names (R190). -/
def State.accessFails (s : State) (k : Acc) (va : Word) (len align hint : Nat) (e : Stop) : Prop :=
  (va.toNat % align ≠ 0 ∧ e = .fault 6 (some va)) ∨
    (va.toNat % align = 0 ∧ ∃ c a, s.resolve s.cur k va len hint = .error (c, a) ∧ e = .fault c (some (BitVec.ofNat 64 a)))

/-- The size in bytes of an access word (R200). -/
def wordSize (x : Syl) : Nat := if x.d.toNat % 4 = 3 then 8 else 4

/-- Where an old value goes (R201): a register, nowhere for s0, the next store-data entry for s54. -/
def State.oldTo (s : State) (a : Nat) (dst : AmoDst) (s' : State) : Prop :=
  (a = 0 ∧ dst = .none ∧ s' = s) ∨
    (s.cur.ordinary a true ∧ dst = .reg a ∧ s' = s) ∨
    (a = 54 ∧ dst = .store s.fresh ∧ s.reserve false 0 = .ok s')

/-- An atomic or sync-word form: aligned and resolved to memory, its marker enters both address queues behind what is there,
with the operands as read (R192, R200 to R202). -/
def Marks (opc : Nat) (i : Syl → Instr) (k : Syl → Acc) (len : Syl → Nat) (sync : Bool) (dst : Syl → Nat)
    (op : Syl → Args → AmoDst → MarkOp) : Prop :=
  Accesses opc i (fun _ _ _ => 1) (fun x g s s' => ∃ r ps d s1, g.b.w.toNat % len x = 0 ∧
    s.resolve s.cur (k x) g.b.w (len x) x.ch.toNat = .ok r ∧ r.tgt = .mem ps ∧ (sync = true → ∀ p ∈ ps, p.fe = true) ∧
    s.oldTo (dst x) d s1 ∧
    s' = (s1.pushMarker true (x.d.toNat / 8 % 8) g.b.w r.tgt (op x g d)).resolved s.stage.uid r)

/-- The new value of an atomic of `size` bytes (R201): `x` is s[C], `y` operand E. -/
def AtomicValue (opc size : Nat) (sgn : Bool) (old x y new : Nat) : Prop :=
  let m := 2 ^ (8 * size)
  let e := y % m
  let less (a b : Nat) : Prop := if sgn then (a : Int).bmod m < (b : Int).bmod m else a < b
  (opc = 0x20 → new = (old + e) % m) ∧ (opc = 0x21 → new = e) ∧
  (opc = 0x22 → (old = x % m → new = e) ∧ (old ≠ x % m → new = old)) ∧
  (opc = 0x23 → (less e old → new = e) ∧ (¬ less e old → new = old)) ∧
  (opc = 0x24 → (less old e → new = e) ∧ (¬ less old e → new = old)) ∧
  (opc = 0x25 → new = old &&& e) ∧ (opc = 0x26 → new = old ||| e) ∧ (opc = 0x27 → new = old ^^^ e)

/-- What a fence token of kind `kind` covers and is not yet performed (R204, R205): nothing is left below `limit`, in the
queues, in those of the interrupted code and in the store buffer. -/
def Task.covered (t : Task) (kind scope limit : Nat) : Prop :=
  (kind ≠ 1 → ∀ a ∈ t.flow.frame.loads ++ t.q.loads, a.seq < limit → ∃ n, a.kind = .marker n) ∧
  (∀ e ∈ t.flow.frame.stores ++ t.q.stores, match e with
    | .sta n _ _ _ _ _ _ => n < limit → kind = 2
    | .marker _ n _ _ _ op _ => n < limit → op = .mark ∨
        (kind = 2 ∧ (∀ o z v x y d, op ≠ .amo o z v x y d) ∧ ∀ z v d, op ≠ .ldfe z v d)) ∧
  (kind = 2 ∨ scope = 0 ∨ ∀ p ∈ t.q.buffer, ∀ n ∈ p.seqs, limit < n.1)

/-- A task whose queued accesses may perform: it is neither being saved nor Yielded. -/
def Task.moving (t : Task) : Prop := t.phase ≠ .saving ∧ t.phase ≠ .yielded

/-- The head of a task's store queue is the marker `id` with `op` at `pa`, and every access ahead of it has performed at its
scope (R192, R200). -/
structure AtMarker (t : Task) (id seq scope : Nat) (va : Word) (p : Piece) (op : MarkOp) : Prop where
  moving : t.moving
  head : ∃ ps rest, t.q.stores = .marker id seq scope va (.mem (p :: ps)) op none :: rest
  loads : ∃ a rest, t.q.loads = a :: rest ∧ a.kind = .marker id
  buffer : scope = 0 ∨ t.q.buffer = []
  /-- no place of the store buffer is of its line -/
  clean : ∀ b ∈ t.q.buffer, b.line ≠ p.pa / 64

/-- An address of this package's own memory. -/
def State.home (s : State) (pa : Nat) : Prop := s.needsFabric pa = false

/-- The machine in which an access at the head of the queues of task `c` waits for its line: memory, the full/empty bits, the
task's registers and its queues are as they were, but for the note of what the access waits at, and a fill request may be queued
(R202, R270). -/
def State.heldBack (s : State) (c : Nat) (t : Task) (s' : State) : Prop :=
  s'.mem = s.mem ∧ s'.empties = s.empties ∧
    ∃ u, s'.task? c = some u ∧ u.regs = t.regs ∧ u.q = { t.q with parked := u.q.parked }

/-! ## The Acre -/

/-- The first free entry of a lease table (R151). -/
def Plot.firstFree (p : Plot) (e : Nat) : Prop :=
  e < 8 ∧ Tab.get? p.leases e = none ∧ ∀ d, d < e → Tab.get? p.leases d ≠ none

/-- Whether an `alease` of a task can be granted at once: an entry is free, nobody waits, and none of the task's drains. -/
def Plot.grantsNow (p : Plot) (uid e : Nat) : Prop := p.firstFree e ∧ p.waiting = [] ∧ p.drains (.task uid) = false

/-- `alease` and `alease.try` (R151): a task that holds or awaits a lease gets its token at once; else the register is empty
until the grant, which comes now, or after those that wait; `alease.try` does not wait and gives a zero. -/
def Leases (i : Syl → Instr) (try_ : Bool) : Prop :=
  Acts .M 0x001 i (fun x _ s s' =>
    let p := s.plot s.cur.plot
    let uid := s.stage.uid
    let r : LeaseReq := ⟨.task uid, s.cur.job.prio, if x.a = 0 then none else some s.fresh⟩
    ((p.leaseOf uid ≠ none ∨ p.requests uid = true) ∧ s.putS x.a 1 0x80000000 = .ok s') ∨
    (p.leaseOf uid = none ∧ p.requests uid = false ∧
      ((∃ e s1, p.grantsNow uid e ∧ s.produce .alease x.a.toNat 0 0 0 = .ok s1 ∧ s' = s1.giveLease s.cur.plot e r) ∨
       ((∀ e, ¬ p.grantsNow uid e) ∧
        ((try_ = true ∧ s.produce .alease x.a.toNat (s.stage.cycle + 1) 0 0 = .ok s') ∨
         (try_ = false ∧ ∃ s1, s.produce .alease x.a.toNat 0 0 0 = .ok s1 ∧
           s' = s1.setPlot s.cur.plot { p with waiting := insertReq r p.waiting }))))))

/-- A queued form (R148, R149): with a lease whose token is there and whose command queue has room, and operands that pass
the checks `P` against the operand state as issued, its command enters the queue. -/
def QueuesCommand (opc : Nat) (i : Syl → Instr) (cost : Syl → Args → State → Cost × Nat)
    (P : Syl → Args → Task → OperandState → Prop) (E : Syl → Args → State → State → Prop) (tile reg : Syl → Nat)
    (xyz : Syl → Args → Task → Word × Word × Word) : Prop :=
  Completes .M opc i cost
    (fun _ _ s => ∃ e l, (s.plot s.cur.plot).leaseOf s.stage.uid = some (e, l) ∧ l.pending = false ∧ l.cmds.length < 16)
    (fun x g s s' => ∃ e l s1, (s.plot s.cur.plot).leaseOf s.stage.uid = some (e, l) ∧ P x g s.cur l.issued ∧ E x g s s1 ∧
      s' = (let p := s.plot s.cur.plot
            let v := xyz x g s.cur
            let c : AcreCmd := ⟨s.fresh, opc, wordOf opc x, x.d.toNat, tile x, reg x, v.1, v.2.1, v.2.2, s.cur.q.seq, s.cur.pl,
              if l.issued.ad / 32 % 4 = 2 then p.furrow else [], s.stage.cycle, none⟩
            s1.mint.setPlot s.cur.plot { p with leases := Tab.set p.leases e { l with cmds := l.cmds ++ [c] } }))

/-- The limits of a shape word (R157). -/
def ShapeOk (w : Word) (product : Bool) : Prop :=
  let n := w.toNat
  let m := n / 2 ^ 13 % 2 ^ 8
  let cols := n / 2 ^ 21 % 2 ^ 9
  let row0 := n / 2 ^ 32 % 2 ^ 7
  let col0 := n / 2 ^ 39 % 2 ^ 9
  m ≤ 128 ∧ cols ≤ 256 ∧ col0 ≤ 255 ∧ col0 + cols ≤ 256 ∧ row0 + m ≤ 128 ∧ (product = true → n % 2 ^ 13 ≤ 4096)

/-- A shape word names the whole tile. -/
def ShapeWhole (w : Word) : Prop := w.toNat / 2 ^ 13 % 2 ^ 8 = 128 ∧ w.toNat / 2 ^ 21 % 2 ^ 9 = 256

/-- The checks of a product (R149, R154 to R158, R161): the tile held, the shape, KOFF and mask address, A and B bound, the
rows within the list, scales bound where a tag is scaled, the tags of one kind, and FP32 in a tile that is added to. -/
def ProductOk (mixed accum : Bool) (tile : Nat) (shape : Word) (j0 : Nat) (mask : Word) (t : Task) (o : OperandState) : Prop :=
  tile < t.job.tiles.length ∧ ShapeOk shape true ∧ t.job.issueKoff % 32 = 0 ∧ t.job.issueKoff < 2 ^ 24 ∧ mask.toNat % 64 = 0 ∧
  o.av = true ∧ o.bv = true ∧ j0 + shape.toNat / 2 ^ 13 % 2 ^ 8 ≤ (if o.ad / 32 % 4 = 2 then 1024 else 65536) ∧
  (blockLen (o.ad % 32) ≠ 0 ∨ blockLen (o.bd % 32) ≠ 0 → o.sv = true) ∧ pairOk mixed (o.ad % 32) (o.bd % 32) = true ∧
  (accum = true ∨ ¬ ShapeWhole shape → t.job.issueTags.getD tile 0 = 31)

/-- The charge of the products (R160). -/
def productCosts : Syl → Args → State → Cost × Nat := fun _ g s => productCost (fun g => g.b.w) g s

/-- A product form (R158). -/
def Products (opc : Nat) (i : Syl → Instr) (mixed accum : Bool) : Prop :=
  QueuesCommand opc i productCosts
    (fun x g t o => ProductOk mixed accum x.a.toNat g.b.w g.e.w.toNat 0 t o)
    (fun x g s s1 => s1 = s.onCur (fun t => t.productIssued x.a.toNat g.b.w (x.d.getLsbD 0)))
    (fun x => x.a.toNat) (fun _ => 0) (fun _ g _ => (g.b.w, 0, g.e.w))

/-- The charge of the tile forms (R160). -/
def tileCosts : Syl → Args → State → Cost × Nat := fun _ _ _ => (⟨4, 0, 0, 1, 0⟩, 0)

/-! ## Range forms -/

/-- The bytes of the save area of a context that hold the state of a range form, where it has a save region (R144, R335). -/
def State.rangeAt (s : State) (ctx a : Nat) : Prop :=
  s.saveBase ctx ≠ 0 ∧ s.saveBase ctx + 0x1080 ≤ a ∧ a < s.saveBase ctx + 0x1180

/-- The operands of a range form pass (R141, R145): the tag of an index register, the count, and the alignment of both
addresses to the element. -/
def RangeOk (opc : Nat) (x : Syl) (g : Args) : Prop :=
  (opc = 0x0A4 → g.c.tag = 29 ∨ g.c.tag = 30 ∨ g.c.tag = 34) ∧
  (opc ≠ 0x0A4 → g.c.w.toNat % 2 ^ 32 ≤ if opc = 0x0A2 then vecWidth x else 65536) ∧
  g.b.w.toNat % rangeSize opc x = 0 ∧ (opc = 0x0A1 ∨ opc = 0x0A4 → g.e.w.toNat % rangeSize opc x = 0)

/-- The value and tag that a range form writes from its partial result (R145). -/
def rangeValue (opc : Nat) (x : Syl) (p : RangeState) : Vec × Tag :=
  if opc = 0x0A0 then (pairReg x p.pairs, 36)
  else if opc = 0x0A1 then (vec (BitVec.ofNat 64 p.kept), 0)
  else if opc = 0x0A2 then (p.bits, 0)
  else if opc = 0x0A3 then (vec p.acc, 0)
  else (p.bits, x.d.setWidth 6)

/-- The bytes of a write laid out over its pieces, each with its address. -/
def laid : List Piece → List Byte → List (Nat × List Byte)
  | [], _ => []
  | p :: ps, bs => (p.pa, bs.take p.len) :: laid ps (bs.drop p.len)

/-- The byte at `a`, `old` before, after runs of bytes are written one after the other. -/
def written (cells : List (Nat × List Byte)) (a : Nat) (old : Byte) : Byte :=
  cells.foldl (fun b e => if e.1 ≤ a ∧ a < e.1 + e.2.length then e.2.getD (a - e.1) 0 else b) old

/-! ## Completion maps and the Drill -/

/-- A selector that stays within the 512 chunks (R232). -/
def SelectorOk (e : Word) : Prop := e.getLsbD 63 = true ∨ e.toNat % 2 ^ 9 + e.toNat / 2 ^ 9 % 2 ^ 10 ≤ 512

/-- The chunks that a selector selects (R232): a mask of 48 from a base, or a range. -/
def Selected (e : Word) (i : Nat) : Prop :=
  if e.getLsbD 63 then
    e.toNat / 2 ^ 48 % 2 ^ 9 ≤ i ∧ i - e.toNat / 2 ^ 48 % 2 ^ 9 < 48 ∧ e.getLsbD (i - e.toNat / 2 ^ 48 % 2 ^ 9) = true
  else e.toNat % 2 ^ 9 ≤ i ∧ i < e.toNat % 2 ^ 9 + e.toNat / 2 ^ 9 % 2 ^ 10

/-- Map `n` of the tiller of the task on the stage. -/
def State.curMap (s : State) (n : Nat) : CMap := (s.tiller s.cur.tiller).map n

/-- The map may be named by the task on the stage: it is its own, or nobody's (R231). -/
def State.ownable (s : State) (n : Nat) : Prop := (s.curMap n).owner = none ∨ (s.curMap n).owner = some s.stage.uid

/-- The map is the task's and holds every selected chunk (R233). -/
def State.mapHolds (s : State) (n : Nat) (e : Word) : Prop :=
  (s.curMap n).owner = some s.stage.uid ∧ ∀ i, i < 512 → Selected e i → (s.curMap n).bits.getLsbD i = true

/-- A Drill queue of the task's tiller has room (R225). -/
def State.drillRoom (s : State) : Prop := (s.tiller s.cur.tiller).drillDepth < 16

/-- The maps that a drain of map `n`, or of all, acts on have nothing outstanding (R235). -/
def State.drainable (s : State) (all : Bool) (n : Nat) : Prop :=
  ∀ e ∈ (s.tiller s.cur.tiller).maps, e.2.owner = some s.stage.uid → all = true ∨ e.1 = n → (s.curMap e.1).outstanding = 0

/-- The same maps have no recorded error. -/
def State.drainClean (s : State) (all : Bool) (n : Nat) : Prop :=
  ∀ e ∈ (s.tiller s.cur.tiller).maps, e.2.owner = some s.stage.uid → all = true ∨ e.1 = n → (s.curMap e.1).err = none

/-- Bytes `bs` written at `a`, every other byte as before. -/
def State.wrote (s : State) (a : Nat) (bs : List Byte) (s' : State) : Prop :=
  ∀ x, s'.at x = if a ≤ x ∧ x < a + bs.length then bs.getD (x - a) 0 else s.at x

/-- A collective form (R248): with room in the queue and both addresses aligned, A receives the engine's count with it, and
the entry is queued. -/
def Collects (opc : Nat) (i : Syl → Instr) (kind : CollKind) : Prop :=
  Completes .M opc i plainCost (fun _ _ s => (s.die s.cur.die).colls.length < 64) (fun x g s s' =>
    let t := s.cur
    let d := s.die t.die
    ∃ s1, g.b.w.toNat % 64 = 0 ∧ g.c.w.toNat % 8 = 0 ∧ s.putS x.a 1 (BitVec.ofNat 64 (d.accepted + 1)) = .ok s1 ∧
      s' = (let e : CollEntry := ⟨s1.fresh, s.stage.uid, t.tenant, t.pl, t.plot, kind, x.d.toNat, g.b.w, g.c.w, g.e.w,
              s.stage.seq, s.groupTables, false, false, [], none⟩
            ((s1.setDie t.die { d with colls := d.colls ++ [e], accepted := d.accepted + 1 }).onCur
              (fun t => t.begin s1.fresh)).mint))

/-- An engine waits: its queues, memory and every task are as they were (R346). -/
def State.waitsOn (s s' : State) : Prop := s'.dies = s.dies ∧ s'.tasks = s.tasks ∧ s'.mem = s.mem ∧ s'.empties = s.empties

/-! ## Launches, budgets and row control -/

/-- A sync-word access of eight bytes at `va` passes its checks as `r`, whose first byte lies in `p` (R184, R190, R202). -/
def State.syncAt (s : State) (k : Acc) (va : Word) (r : Resolved) (p : Piece) : Prop :=
  va.toNat % 8 = 0 ∧ s.resolve s.cur k va 8 = .ok r ∧ ∃ ps, r.tgt = .mem (p :: ps) ∧ ∀ q ∈ p :: ps, q.fe = true

/-- The lowest free slot of the slot table (R309). -/
def State.lowestFree (s : State) (n : Nat) : Prop :=
  n < 1024 ∧ (s.slot n).v = false ∧ ∀ m, m < n → (s.slot m).v = true

/-- The wait of a counter is met (R322): its line is full, or a target other than zero is reached. -/
def State.counted (s : State) (pa : Nat) (target : Word) : Prop :=
  s.isRemote pa = false ∧ (s.full pa = true ∨ (target ≠ 0 ∧ target.toNat ≤ (s.word pa).toNat % 2 ^ 63))

/-- Who may change a grid (R299, R321): PL 1 those of its own tenant, PL 2 any; and it must be bound or drained. -/
def Task.governs (t : Task) (y : Slot) : Prop := (t.pl = 1 → y.tenant = t.tenant) ∧ (y.st = 3 ∨ y.st = 4)

/-- The rows of a range word (R260): the first row and the count. -/
def rows (w : Word) : Nat × Nat := (w.toNat % 2 ^ 10, w.toNat / 2 ^ 10 % 2 ^ 11)

/-- A form of `rcupd` (R261, R262): a range within the store, a valid plane for an update, an aligned address; with no rows
nothing but 4 cycles, else, once the checks pass and nothing holds it back, its effect and its cycles. -/
def RowUpdates (i : Syl → Instr) (op : RcOp) : Prop :=
  Completes .C 0x048 i (fun _ g _ => (Cost.plain, ceilDiv ((rows g.c.w).2 * op.size) 64)) (fun _ _ s => s.cur.invalidating = false)
    (fun _ g s s' => (rows g.c.w).1 + (rows g.c.w).2 ≤ 1024 ∧ (op = .f32 ∨ op = .bf16 → s.curPlane.valid = true) ∧
      g.b.w.toNat % op.size = 0 ∧
      (((rows g.c.w).2 = 0 ∧ s' = s.keepStage 4) ∨
       ∃ r, (rows g.c.w).2 ≠ 0 ∧
        s.holdCheck (if op = .st then .write else .read) g.b.w ((rows g.c.w).2 * op.size) = .ok r ∧
        s.holdWaits r.1 (if op = .st then r.1 else []) = false ∧
        s' = (s.rcAct op (rows g.c.w).1 (rows g.c.w).2 (g.c.w.toNat / 2 ^ 32 % 64) r).keepStage (4 + ceilDiv (rows g.c.w).2 32)))

/-- The rows that `harrow` selects (R263). -/
def Selects263 (d blk : Nat) (w : BitVec 32) : Prop :=
  (if d % 4 = 0 then w.toNat % 4 = 0 ∨ w.toNat % 4 = 3 else if d % 4 = 1 then w.toNat % 4 = 0
    else if d % 4 = 2 then w.toNat % 4 = 3 else w.toNat % 4 = 2) ∧
  (d / 4 % 2 = 1 → w.toNat / 4 % 64 = blk)

/-! ## Registers of the management core -/

/-- The plain management registers at the offsets of `P` may differ, and nothing else. -/
structure RegsOnly (P : Nat → Prop) (s s' : State) : Prop where
  regs : ∀ o, ¬ P o → s'.reg o = s.reg o
  rest : { s' with mgmt := { s'.mgmt with regs := s.mgmt.regs } } = s

/-- A write by a master or the management core (R362): where it is allowed it leads where `E` says; where not, it writes
nothing, and a master's refused write is counted. -/
def WrittenBy (s : State) (w : Writer) (i : Instr) (allowed : Prop) (E : State → Prop) : Prop :=
  (allowed → ∃ s', exec i s = .next s' ∧ E s') ∧ (¬ allowed → exec i s = .next (s.refuse w))

/-- Who writes the management registers (R362): the management core while it runs, and the owner; outside recovery. -/
def Allowed (s : State) (w : Writer) : Prop :=
  4 ≤ s.mgmt.step ∧ s.mgmt.recovery = false ∧ (w = .core ∨
    ∃ m code, w = .master m ∧ (m, code) ∈ [(Master.board, 1), (.host, 2), (.fabric, 3)] ∧ s.mgmt.own.toNat / 16 % 4 = code)

/-- Who writes the registers that recovery serves as well (R365): the board controller, as the owner. -/
def InRecovery (s : State) (w : Writer) : Prop :=
  s.mgmt.recovery = true ∧ w = .master .board ∧ s.mgmt.own.toNat / 16 % 4 = 1

/-- The management core runs (R362, R367). -/
def CoreRuns (s : State) (w : Writer) : Prop := 4 ≤ s.mgmt.step ∧ s.mgmt.recovery = false ∧ w = .core

/-- Bytes [b .. b + size) of the second-tier range that a window entry names (R342). -/
def windowOf (w : Word × Word) : Nat × Nat := (w.1.toNat / 2 ^ 30 % 2 ^ 22 * 2 ^ 30, w.2.toNat % 2 ^ 32 * 2 ^ 30)

/-- An entry of the window table that may be staged (R342): within the second-tier range, of 1 to 16,384 GiB, and apart from
every other published or staged entry. -/
def WindowOk (s : State) (n : Nat) (w : Word × Word) : Prop :=
  0x100000000000 ≤ (windowOf w).1 ∧ (windowOf w).1 + (windowOf w).2 ≤ 0x200000000000 ∧
    1 ≤ w.2.toNat % 2 ^ 32 ∧ w.2.toNat % 2 ^ 32 ≤ 16384 ∧
    ∀ m, m < 128 → m ≠ n → let x := s.windowEntry m
      (x.1.getLsbD 63 = true ∨ x.1.getLsbD 62 = true) →
        (windowOf w).1 + (windowOf w).2 ≤ (windowOf x).1 ∨ (windowOf x).1 + (windowOf x).2 ≤ (windowOf w).1

/-! ## The package edge -/

/-- The fields of a group that an operation of Capo may leave to the end of its step: what follows a change of state, that
held requests try their paths, changes only what was sent. -/
def Group.like (x y : Group) : Prop :=
  x.st = y.st ∧ x.op = y.op ∧ x.preset = y.preset ∧ x.target = y.target ∧ x.width = y.width ∧ x.lanes = y.lanes ∧
    x.failed = y.failed ∧ x.tried = y.tried ∧ x.epoch = y.epoch ∧ x.err = y.err

/-- A group whose link carries what is under way on it: UP, or in an operation that has not left DRAIN (R346). -/
def Group.open (x : Group) : Prop := x.st = .up ∨ x.st = .quiesce ∨ x.st = .drain

/-- Nothing waits for a link: no request is held at an admission point, and every notice has been sent (R346, R353). -/
def State.calm (s : State) : Prop := (∀ r ∈ s.fab.reqs, r.held = false) ∧ ∀ n ∈ s.fab.notices, n.sent ≠ none

/-- Everything in flight on groups is finished (R346): requests sent, or held there before the operation, requests of other
packages, replies and notices, and every flit is acknowledged. -/
def State.allFinished (s : State) (gs : List Nat) : Prop :=
  (∀ r ∈ s.fab.reqs, r.group ∈ gs → r.held = true ∧ r.early = false) ∧ (∀ r ∈ s.fab.inbound.waiting, r.group ∉ gs) ∧
    (∀ e ∈ s.fab.inbound.queued, e.1 ∉ gs) ∧
    (∀ n ∈ s.fab.notices, (∀ e, n.sent = some e → e.1 ∉ gs) ∧ ∀ g, n.bound = some g → g ∉ gs) ∧
    ∀ g ∈ gs, (s.group g).retry = [] ∧ (s.group g).lane = []

/-- A request of this package that has been sent and not answered, on a group that carries its answer (R354). -/
def State.asked (s : State) (r : Req) : Prop :=
  r ∈ s.fab.reqs ∧ r.held = false ∧ (∀ q ∈ s.fab.reqs, q.tag = r.tag → q = r) ∧ (s.group r.group).open

/-- An answer leaves for the sender of a request (R346, R350, R354): at once where the group has room and no other answer is
queued, else once both hold. -/
def Told (r : FarRequest) (rep : FarReply) (s s' : State) : Prop :=
  let b := s.fab.inbound
  let b' := s'.fab.inbound
  let g := s.evenOf r.group
  ((r.pkg, r.tag, rep) ∈ b'.sent ∨ (g, r.pkg, r.tag, rep) ∈ b'.queued) ∧
    (b.queued = [] → (s.group g).retry.length < 256 → b'.sent = b.sent ++ [(r.pkg, r.tag, rep)] ∧ b'.queued = [])

/-- A last answer to a request of another package: it goes to its sender, and is kept for copies of the request, which waits no
more (R354). -/
def Answered (r : FarRequest) (rep : FarReply) (s s' : State) : Prop :=
  Told r rep s s' ∧ s'.fab.inbound.answered = s.fab.inbound.answered ++ [((r.pkg, r.tag), rep)] ∧
    ∀ x, x ∈ s'.fab.inbound.waiting ↔ x ∈ s.fab.inbound.waiting ∧ ¬(x.pkg = r.pkg ∧ x.tag = r.tag)

/-- A package whose requests are served (R354): its bit in the peer mask. -/
def State.peer (s : State) (pkg : Nat) : Prop := pkg < 1024 ∧ (s.reg (0x160200 + 8 * (pkg / 64))).getLsbD (pkg % 64) = true

end Sys2Proof.Machine
end

