-- ==== Sys2Proof/Certificates/Slice0/Obligations.lean ====
section
/-! DEFINITION. The statements about the machine, each from the rules of the specification that its docstring names. -/

section
open Sys2Proof Sys2Proof.Machine

/-! ## Scalar forms -/

/-- The scalar arithmetic of R94: each form, ready on any operands, completes and starts the value of its table row.

The logic and shift forms of R96, with their fields and FEM bits, and the bit fields of R97, bit by bit.

The moves of R99, with their fields and FEM bits: a register, operand E, and the choice of a predicate as it stood at the
bundle's first issue cycle. -/
def Obligations.ScalarOperations : Prop :=
  (WritesS .S 0x001 1 .add (fun _ g _ v => v = BitVec.ofInt 64 (g.b.w.toInt + g.e.w.toInt)) ∧
  WritesS .S 0x002 1 .sub (fun _ g _ v => v = BitVec.ofInt 64 (g.b.w.toInt - g.e.w.toInt)) ∧
  WritesS .S 0x003 3 .mul (fun _ g _ v => v = BitVec.ofInt 64 (g.b.w.toInt * g.e.w.toInt)) ∧
  WritesS .S 0x004 3 .mulh (fun _ g _ v => v.toInt * 2 ^ 64 ≤ g.b.w.toInt * g.e.w.toInt ∧
    g.b.w.toInt * g.e.w.toInt < (v.toInt + 1) * 2 ^ 64) ∧
  WritesS .S 0x005 3 .mulhu (fun _ g _ v => v.toNat * 2 ^ 64 ≤ g.b.w.toNat * g.e.w.toNat ∧
    g.b.w.toNat * g.e.w.toNat < (v.toNat + 1) * 2 ^ 64) ∧
  WritesS .S 0x006 1 .shadd (fun x g _ v => v.toNat = (g.b.w.toNat * 2 ^ x.c.toNat + g.e.w.toNat) % 2 ^ 64) ∧
  WritesS .S 0x007 1 .sext (fun x g _ v => x.c.toNat ≤ 63 ∧
    ∀ i, i < 64 → v.getLsbD i = g.b.w.getLsbD (min i x.c.toNat)) ∧
  WritesS .S 0x008 1 .zext (fun x g _ v => ∀ i, i < 64 → v.getLsbD i = (decide (i ≤ x.c.toNat) && g.b.w.getLsbD i)) ∧
  WritesS .S 0x009 1 .min (fun _ g _ v => v.toInt = min g.b.w.toInt g.e.w.toInt) ∧
  WritesS .S 0x00A 1 .minu (fun _ g _ v => v.toNat = min g.b.w.toNat g.e.w.toNat) ∧
  WritesS .S 0x00B 1 .max (fun _ g _ v => v.toInt = max g.b.w.toInt g.e.w.toInt) ∧
  WritesS .S 0x00C 1 .maxu (fun _ g _ v => v.toNat = max g.b.w.toNat g.e.w.toNat) ∧
  WritesS .A 0x001 1 .lea (fun x g _ v => v.toNat = (g.b.w.toNat + g.e.w.toNat * 2 ^ x.d.toNat) % 2 ^ 64)) ∧
  ((∀ opc, 0x020 ≤ opc → opc ≤ 0x029 → kindsOf .S opc = [.dS, .sS, .z, .z, .eS] ∧
    (kindsOf .S opc).map Kind.fem = [false, true, false, false, true]) ∧
  WritesS .S 0x020 1 .and (fun _ g _ v => ∀ i, i < 64 → v.getLsbD i = (g.b.w.getLsbD i && g.e.w.getLsbD i)) ∧
  WritesS .S 0x021 1 .or (fun _ g _ v => ∀ i, i < 64 → v.getLsbD i = (g.b.w.getLsbD i || g.e.w.getLsbD i)) ∧
  WritesS .S 0x022 1 .xor (fun _ g _ v => ∀ i, i < 64 → v.getLsbD i = (g.b.w.getLsbD i != g.e.w.getLsbD i)) ∧
  WritesS .S 0x023 1 .andn (fun _ g _ v => ∀ i, i < 64 → v.getLsbD i = (g.b.w.getLsbD i && !g.e.w.getLsbD i)) ∧
  WritesS .S 0x024 1 .orn (fun _ g _ v => ∀ i, i < 64 → v.getLsbD i = (g.b.w.getLsbD i || !g.e.w.getLsbD i)) ∧
  WritesS .S 0x025 1 .shl (fun _ g _ v => v.toNat = g.b.w.toNat * 2 ^ (g.e.w.toNat % 64) % 2 ^ 64) ∧
  WritesS .S 0x026 1 .shr (fun _ g _ v => v.toNat = g.b.w.toNat / 2 ^ (g.e.w.toNat % 64)) ∧
  WritesS .S 0x027 1 .sar (fun _ g _ v => v.toInt = g.b.w.toInt / 2 ^ (g.e.w.toNat % 64)) ∧
  WritesS .S 0x028 1 .rol (fun _ g _ v => ∀ i, i < 64 →
    v.getLsbD ((i + g.e.w.toNat % 64) % 64) = g.b.w.getLsbD i) ∧
  WritesS .S 0x029 1 .ror (fun _ g _ v => ∀ i, i < 64 →
    v.getLsbD i = g.b.w.getLsbD ((i + g.e.w.toNat % 64) % 64)) ∧
  WritesS .S 0x030 1 .bext (fun x g _ v => ∀ i, i < 64 →
    v.getLsbD i = (decide (i < x.d.toNat) && g.b.w.getLsbD (x.c.toNat + i))) ∧
  WritesS .S 0x031 1 .bins (fun x g _ v => ∀ i, i < 64 →
    v.getLsbD i = if x.c.toNat ≤ i ∧ i < x.c.toNat + x.d.toNat then g.e.w.getLsbD (i - x.c.toNat) else g.b.w.getLsbD i)) ∧
  ((kindsOf .S 0x040 = [.dS, .sS, .z, .z, .z] ∧ kindsOf .S 0x041 = [.dS, .z, .z, .z, .eS] ∧
    kindsOf .S 0x042 = [.dS, .sS, .p, .z, .eS] ∧
    (kindsOf .S 0x040).map Kind.fem = [false, true, false, false, false] ∧
    (kindsOf .S 0x041).map Kind.fem = [false, false, false, false, true] ∧
    (kindsOf .S 0x042).map Kind.fem = [false, true, false, false, true]) ∧
  WritesS .S 0x040 1 .mov (fun _ g _ v => v = g.b.w) ∧
  WritesS .S 0x041 1 .li (fun _ g _ v => v = g.e.w) ∧
  WritesS .S 0x042 1 .sel (fun x g r v => v = if r.getP x.c.toNat then g.b.w else g.e.w))

/-- R98: the fields of clz, ctz and popc and their FEM bits, and the counts that they write, 64 for a zero operand of the first
two. -/
def Obligations.ScalarCounts : Prop :=
  (∀ opc, opc = 0x032 ∨ opc = 0x033 ∨ opc = 0x034 → kindsOf .S opc = [.dS, .sS, .z, .z, .z] ∧
    (kindsOf .S opc).map Kind.fem = [false, true, false, false, false]) ∧
  WritesS .S 0x032 1 .clz (fun _ g _ v => v.toNat ≤ 64 ∧ (∀ i, i < v.toNat → g.b.w.getLsbD (63 - i) = false) ∧
    (v.toNat < 64 → g.b.w.getLsbD (63 - v.toNat) = true)) ∧
  WritesS .S 0x033 1 .ctz (fun _ g _ v => v.toNat ≤ 64 ∧ (∀ i, i < v.toNat → g.b.w.getLsbD i = false) ∧
    (v.toNat < 64 → g.b.w.getLsbD v.toNat = true)) ∧
  WritesS .S 0x034 1 .popc (fun _ g _ v => v.toNat = (List.range 64).countP (fun i => g.b.w.getLsbD i))

/-- The integer compares of R100 and the predicate logic of R101, with their fields and FEM bits: p0 reads true, and a write to
it is discarded. -/
def Obligations.ScalarPredicates : Prop :=
  (∀ opc, 0x050 ≤ opc → opc ≤ 0x055 → kindsOf .S opc = [.p, .sS, .z, .z, .eS] ∧
    (kindsOf .S opc).map Kind.fem = [false, true, false, false, true]) ∧
  (∀ opc, 0x058 ≤ opc → opc ≤ 0x05B → kindsOf .S opc = [.p, .p, .p, .z, .z] ∧
    (kindsOf .S opc).map Kind.fem = [false, false, false, false, false]) ∧
  (∀ r : Regs, r.getP 0 = true) ∧ (∀ (s : State) b, s.putP 0 1 b = s) ∧
  WritesP .S 0x050 1 .cmpeq (fun _ g _ => g.b.w = g.e.w) ∧
  WritesP .S 0x051 1 .cmpne (fun _ g _ => g.b.w ≠ g.e.w) ∧
  WritesP .S 0x052 1 .cmplt (fun _ g _ => g.b.w.toInt < g.e.w.toInt) ∧
  WritesP .S 0x053 1 .cmpltu (fun _ g _ => g.b.w.toNat < g.e.w.toNat) ∧
  WritesP .S 0x054 1 .cmple (fun _ g _ => g.b.w.toInt ≤ g.e.w.toInt) ∧
  WritesP .S 0x055 1 .cmpleu (fun _ g _ => g.b.w.toNat ≤ g.e.w.toNat) ∧
  WritesP .S 0x058 1 .pand (fun x _ r => r.getP x.b.toNat = true ∧ r.getP x.c.toNat = true) ∧
  WritesP .S 0x059 1 .por (fun x _ r => r.getP x.b.toNat = true ∨ r.getP x.c.toNat = true) ∧
  WritesP .S 0x05A 1 .pxor (fun x _ r => r.getP x.b.toNat ≠ r.getP x.c.toNat) ∧
  WritesP .S 0x05B 1 .pandn (fun x _ r => r.getP x.b.toNat = true ∧ r.getP x.c.toNat = false)

/-- The FP32 forms of R102 to R105: the exact result rounded once into bits [31:0], the order of −0 below +0, the compares
false with a NaN, and the conversions.

div, divu, rem and remu as R95 says, on any operands. -/
def Obligations.ScalarFloatAndDivision : Prop :=
  (WritesS .S 0x080 4 .fadd (fun _ g _ v => v.toNat = (round32 (Sys2Proof.Num.add (f32lo g.b.w) (f32lo g.e.w))).toNat) ∧
  WritesS .S 0x081 4 .fsub (fun _ g _ v =>
    v.toNat = (round32 (Sys2Proof.Num.add (f32lo g.b.w) (Sys2Proof.Num.negate (f32lo g.e.w)))).toNat) ∧
  WritesS .S 0x082 4 .fmul (fun _ g _ v => v.toNat = (round32 (Sys2Proof.Num.mul (f32lo g.b.w) (f32lo g.e.w))).toNat) ∧
  WritesS .S 0x083 4 .ffma (fun _ g _ v =>
    v.toNat = (round32 (Sys2Proof.Num.add (Sys2Proof.Num.mul (f32lo g.b.w) (f32lo g.c.w)) (f32lo g.e.w))).toNat) ∧
  WritesS .S 0x084 4 .fmin (fun _ g _ v => v.toNat = (fmin32 (g.b.w.setWidth 32) (g.e.w.setWidth 32)).toNat) ∧
  WritesS .S 0x085 4 .fmax (fun _ g _ v => v.toNat = (fmax32 (g.b.w.setWidth 32) (g.e.w.setWidth 32)).toNat) ∧
  WritesP .S 0x086 4 .fcmpeq (fun _ g _ => Sys2Proof.Num.eq (f32lo g.b.w) (f32lo g.e.w) = true) ∧
  WritesP .S 0x087 4 .fcmplt (fun _ g _ => Sys2Proof.Num.lt (f32lo g.b.w) (f32lo g.e.w) = true) ∧
  WritesP .S 0x088 4 .fcmple (fun _ g _ =>
    Sys2Proof.Num.lt (f32lo g.b.w) (f32lo g.e.w) = true ∨ Sys2Proof.Num.eq (f32lo g.b.w) (f32lo g.e.w) = true) ∧
  WritesS .S 0x089 4 .fcvtfi (fun x g _ v =>
    (x.d = 0 → v.toInt = cvtInt (-2 ^ 31) (2 ^ 31 - 1) (f32lo g.b.w)) ∧
    (x.d = 1 → (v.toNat : Int) = cvtInt 0 (2 ^ 32 - 1) (f32lo g.b.w)) ∧
    (x.d = 2 → v.toInt = cvtInt (-2 ^ 63) (2 ^ 63 - 1) (f32lo g.b.w)) ∧
    (x.d = 3 → (v.toNat : Int) = cvtInt 0 (2 ^ 64 - 1) (f32lo g.b.w)) ∧ x.d.toNat ≤ 3) ∧
  WritesS .S 0x08A 4 .fcvtif (fun x g _ v => v.toNat = (round32 (Sys2Proof.Num.ofInt (
    if x.d = 0 then (g.b.w.setWidth 32).toInt else if x.d = 1 then ((g.b.w.setWidth 32).toNat : Int)
    else if x.d = 2 then g.b.w.toInt else (g.b.w.toNat : Int)))).toNat)) ∧
  (Divides 0x010 .div (fun w => w.toInt.natAbs) (fun x y v => ∃ r, QuotRem x y v r) ∧
  Divides 0x011 .divu (fun w => w.toNat) (fun x y v => ∃ r, QuotRemU x y v r) ∧
  Divides 0x012 .rem (fun w => w.toInt.natAbs) (fun x y v => ∃ q, QuotRem x y q v) ∧
  Divides 0x013 .remu (fun w => w.toNat) (fun x y v => ∃ q, QuotRemU x y q v))

/-! ## Encoding and the step -/

/-- Every well-formed syllable is read back from its word, with every field at every value that its encoding admits. -/
def Obligations.SyllableRoundTrip : Prop :=
  ∀ i c w, i.wf = true → encode i = some (c, w) → decodeSyl c w = .ok i

/-- A word of a class has one meaning: what the decoder reads is well formed and encodes to that very word, so no two
instructions share one and no bit of it is dropped. -/
def Obligations.DecodedWordIsUnique : Prop :=
  ∀ c w i, decodeSyl c w = .ok i → i.wf = true ∧ encode i = some (c, w)

/-- The bundle header (R53): every header with LEND 0 to 4 is read back from its word; a word with a reserved bit set, or
LEND of 5 to 7, is refused; any other word is the encoding of what is read; a bundle holds one word more than it has slots
present (R52).

Words of the specification's encodings, bit by bit, and the instructions that they stand for (R56, R72 to R76). -/
def Obligations.HeadersAndWords : Prop :=
  ((∀ h : Header, h.lend.toNat ≤ 4 → decodeHeader (encodeHeader h) = .ok h) ∧
  (∀ (w : Word) i, 12 ≤ i → i < 32 → w.getLsbD i = true → decodeHeader w = .error .header) ∧
  (∀ w : Word, 5 ≤ w.toNat / 2 ^ 9 % 8 → decodeHeader w = .error .header) ∧
  (∀ (w : Word) h, decodeHeader w = .ok h → encodeHeader h = w ∧ h.lend.toNat ≤ 4) ∧
  (∀ p : BitVec 8, bundleLength p = 8 + 8 * (List.range 8).countP (fun j => p.getLsbD j))) ∧
  (decodeTableWord 128 0x0084_0410_0000_0487_FFFF_FFFD_0000_0002 =
    some (.sub ⟨false, 1, false, 0, false, 0, true, 0, 2, 0, 0, 0, 9, 7⟩) ∧
  decodeTableWord 128 0x0E80_0400_0000_0000_0000_0064_0000_0080 =
    some (.topup ⟨false, 0, false, 0, false, 0, true, 0, 0, 0, 0, 0, 0, 0⟩) ∧
  decodeTableWord 128 0x0480_0000_0000_0000_0000_0000_0000_0080 =
    some (.endTask ⟨false, 0, false, 0, false, 0, false, 0, 0, 0, 0, 0, 0, 0⟩) ∧
  decodeTableWord 128 0x0000_0000_0000_0000_0000_0000_0000_0008 =
    some (.nop .V ⟨false, 0, false, 0, false, 0, false, 0, 0, 0, 0, 0, 0, 0⟩) ∧
  decodeTableWord 128 0xFFC0_0000_0000_0000_0000_0000_0000_0001 = none ∧
  decodeTableWord 64 0x100 = some (.headerAloneBundle 0x100))

/-- A step runs the decoded instruction: where a tiller selects a task whose bundle holds one slot that decodes to `i` and
passes the issue check, the step is the meaning of `i` at that slot, brought to the bundle's end (at once, or, where `i` has
written to another package, once those writes are answered), or to the trap that `i` took. That a step is the next item of the agenda is the model's (DESIGN CHOICE, log entry 1). -/
def Obligations.StepRunsDecoded : Prop :=
  ∀ s tl uid t rest hw ws s3 h j w i, Selects s tl uid t rest →
    Fetches (s.fetching tl uid t rest) hw ws s3 → decodeHeader hw = .ok h →
    visitsFrom h ws s3.cur.flow.hold s3.cur.flow.resume = [(j, w)] → s3.cur.slotInstr j w = some i →
    let s4 := s3.shape h [(j, w)] (visitsFrom h ws s3.cur.flow.hold 0)
    s4.issueStop [(j, w)] = none →
    (∀ s', exec i (s4.atSlot j) = .next s' → s'.stage.halt = .run →
      (s'.stage.sent.any s'.unacked = false → step s = .next s'.endBundle.closeStage) ∧
      (s'.stage.sent.any s'.unacked = true → step s = .next (s'.keepHeld uid tl).closeStage)) ∧
    (∀ s', exec i (s4.atSlot j) = .next s' → s'.stage.halt = .stopped → step s = .next s'.stopped.closeStage)

/-- The slots of a bundle (R52, R66, R68): present slots and held ones are visited in the order A, S0, S1, V0, V1, V2, M, C,
from the slot of a re-entry on; each runs its instruction where the slot before it has taken effect, a slot that faults ends
the bundle, and a word that is no instruction raises the illegal-syllable fault at its slot.

A bundle that does not pass its issue check (R61) changes nothing of its task but where it stands: the task is Blocked on
what it awaits, one more held cycle is counted, and every register, queue and address is as before. That a blocked attempt
counts one cycle is the model's reading (DEDUCED, log entry 19). -/
def Obligations.BundlesRunInOrder : Prop :=
  ((∀ h ws hold j0, ((visitsFrom h ws hold j0).map (·.1)).Pairwise (· < ·) ∧
    ∀ j, j ∈ (visitsFrom h ws hold j0).map (·.1) ↔
      j < 8 ∧ j0 ≤ j ∧ (h.present.getLsbD j = true ∨ (hold.getD j ⟨false, 0⟩).valid = true)) ∧
  (∀ (s s' : State) j w i rest, s.cur.slotInstr j w = some i → exec i (s.atSlot j) = .next s' →
    (s'.stage.halt = .run → s.runSlots ((j, w) :: rest) = s'.runSlots rest) ∧
    (s'.stage.halt = .stopped → s.runSlots ((j, w) :: rest) = .next s')) ∧
  (∀ (s : State) j w rest e, decodeSyl (slotClass j) w = .error e →
    s.runSlots ((j, w) :: rest) = .next ((s.atSlot j).takeFault 1 w none))) ∧
  (∀ (s s1 : State) uid tl t why, s.task? uid = some t → s1.stage.halt = .block why →
    ∃ s', s.conclude uid tl (.next s1) = .next s' ∧ s'.mem = s.mem ∧ s'.empties = s.empties ∧
      (∀ n, n ≠ uid → s'.task? n = s.task? n) ∧
      ∃ u, s'.task? uid = some u ∧ u.phase = .blocked why ∧ u.pc = t.pc ∧ u.regs = t.regs ∧ u.q = t.q ∧
        u.flow = t.flow ∧ u.csr = { t.csr with ypcnt := u.csr.ypcnt } ∧
        u.csr.ypcnt.toNat = min (2 ^ 32 - 1) (t.csr.ypcnt.toNat % 2 ^ 32 + 1))

/-- After reset no task is resident and nothing is under way; every byte of memory reads 0 and every line is full; every
SerDes group is OFF, no package number is held, no master owns the part, and no record stands in a slot; with nothing on
the agenda the machine goes on with what the hardware does on its own. That the last clause passes to the hardware's own
happenings is the model's (DESIGN CHOICE, log entry 1).

The reset memory has its canonical form. -/
def Obligations.ResetState : Prop :=
  (State.reset.tasks = [] ∧ State.reset.slots = [] ∧ State.reset.agenda = [] ∧ (∀ a, State.reset.at a = 0) ∧
    (∀ a, State.reset.full a = true) ∧ (∀ g, (State.reset.group g).st = .off) ∧ State.reset.fab.pkg = none ∧
    State.reset.mgmt.own = 0 ∧ (∀ n, State.reset.slot n = Slot.zero) ∧ step State.reset = .next State.reset.background) ∧
  (State.reset.Inv)

/-- Every step keeps the canonical form of memory, from every state that has it. -/
def Obligations.StepKeepsCanonicalMemory : Prop := ∀ s s', s.Inv → step s = .next s' → s'.Inv

/-- What a store into memory leaves, wherever it goes: its own bytes at its own addresses, every other byte as before, and
the canonical form. -/
def Obligations.StoreIsReadBack : Prop :=
  ∀ (s : State) a bs, s.Inv → (s.store a bs).Inv ∧
    (∀ i, i < bs.length → (s.store a bs).at (a + i) = bs.getD i 0) ∧
    (∀ x, x < a ∨ a + bs.length ≤ x → (s.store a bs).at x = s.at x) ∧
    (∀ n : Nat, (s.store a (toLe 8 n)).word a = BitVec.ofNat 64 n)

/-! ## Vector forms -/

/-- The floating-point forms of R123 and R124, element by element with one rounding each.

The integer forms of R125: sums, differences and products modulo the element width whatever the signedness, and the
saturating forms within the bounds of the tag.

The logic and shift forms of R126. -/
def Obligations.VectorElementwise : Prop :=
  (ElementWise 0x001 4 .vadd tagsF (fun _ a _ y => (round32 ((val a).add (val y))).toNat) ∧
  ElementWise 0x002 4 .vsub tagsF (fun _ a _ y => (round32 ((val a).add (val y).negate)).toNat) ∧
  ElementWise 0x003 4 .vmul tagsF (fun _ a _ y => (round32 ((val a).mul (val y))).toNat) ∧
  ElementWise 0x004 8 .vdiv tagsF (fun _ a _ y => (round32 ((val a).div (val y))).toNat) ∧
  ElementWise 0x005 4 .vmin tagsN (fun t a _ y => if t = 31 then (fmin32 (pat a) (pat y)).toNat else
    if elemInt t y < elemInt t a then y else a) ∧
  ElementWise 0x006 4 .vmax tagsN (fun t a _ y => if t = 31 then (fmax32 (pat a) (pat y)).toNat else
    if elemInt t a < elemInt t y then y else a) ∧
  ElementWise 0x007 4 .vfma tagsFFF (fun _ a z y => (round32 (((val a).mul (val z)).add (val y))).toNat) ∧
  ElementWise 0x008 4 .vclamp tagsFFF (fun _ a z y => (fmin32 (fmax32 (pat a) (pat z)) (pat y)).toNat) ∧
  ElementWise 0x009 8 .vsqrt tagsB (fun _ a _ _ => (round32 (val a).sqrt).toNat) ∧
  ElementWise 0x00A 4 .vabs tagsB (fun _ a _ _ => if val a = .nan then 0x7FC00000 else a % 2 ^ 31) ∧
  ElementWise 0x00B 4 .vneg tagsB (fun _ a _ _ => if val a = .nan then 0x7FC00000 else (a + 2 ^ 31) % 2 ^ 32)) ∧
  (ElementWise 0x010 2 .viadd tagsI (fun t a _ y => (a + y) % 2 ^ tagWidth t) ∧
  ElementWise 0x011 2 .visub tagsI (fun t a _ y => (a + (2 ^ tagWidth t - y)) % 2 ^ tagWidth t) ∧
  ElementWise 0x012 2 .vimul tagsI (fun t a _ y => a * y % 2 ^ tagWidth t) ∧
  ElementWise 0x013 2 .vsadd tagsI (fun t a _ y => satElem t (elemInt t a + elemInt t y)) ∧
  ElementWise 0x014 2 .vssub tagsI (fun t a _ y => satElem t (elemInt t a - elemInt t y))) ∧
  (ElementWise 0x020 2 .vand tagsA (fun _ a _ y => a &&& y) ∧
  ElementWise 0x021 2 .vor tagsA (fun _ a _ y => a ||| y) ∧
  ElementWise 0x022 2 .vxor tagsA (fun _ a _ y => a ^^^ y) ∧
  ElementWise 0x023 2 .vandn tagsA (fun _ a _ y => a - (a &&& y)) ∧
  ElementWise 0x024 2 .vshl tagsShift (fun t a _ y => a <<< (y % tagWidth t) % 2 ^ tagWidth t) ∧
  ElementWise 0x025 2 .vshr tagsShift (fun t a _ y => a >>> (y % tagWidth t)) ∧
  ElementWise 0x026 2 .vsar tagsShift (fun t a _ y =>
    ((BitVec.ofNat (tagWidth t) a).sshiftRight (y % tagWidth t)).toNat))

/-- The special functions of R135, each correctly rounded where the enclosure of its value decides (DESIGN CHOICE, log entry 6).

Conversion and quantisation (R130, R131) and value-index pairs (R132). -/
def Obligations.VectorFunctionsAndConversions : Prop :=
  (ElementWise 0x070 12 .vexp tagsB (fun _ a _ _ => (exp32 (pat a)).toNat) ∧
  ElementWise 0x071 12 .vlog tagsB (fun _ a _ _ => (log32 (pat a)).toNat) ∧
  ElementWise 0x072 12 .vrcp tagsB (fun _ a _ _ => (rcp32 (pat a)).toNat) ∧
  ElementWise 0x073 12 .vrsqrt tagsB (fun _ a _ _ => (rsqrt32 (pat a)).toNat) ∧
  ElementWise 0x074 12 .vtanh tagsB (fun _ a _ _ => (tanh32 (pat a)).toNat) ∧
  ElementWise 0x075 12 .vsilu tagsB (fun _ a _ _ => (silu32 (pat a)).toNat) ∧
  ElementWise 0x076 12 .vgelu tagsB (fun _ a _ _ => (gelu32 (pat a)).toNat)) ∧
  (Builds 0x050 4 .vcvt (fun _ g => 1 ≤ g.b.tag.toNat ∧ g.b.tag.toNat ≤ 34) (fun x _ => x.d.setWidth 6)
    (fun x g => vecWidth x / max (tagWidth g.b.tag.toNat) (tagWidth (x.d.toNat % 64)))
    (fun x g r j =>
      let t := g.b.tag.toNat
      let d := x.d.toNat % 64
      let b := elemAt g.b.v (tagWidth t) j
      if gov (r.getK x.c.toNat) (vecWidth x / max (tagWidth t) (tagWidth d)) j then
        (if (t = 3 ∧ d = 31) ∨ (t = 31 ∧ d = 3) then b else cvtTag d (x.d.getLsbD 6) (elemValue t b))
      else 0) ∧
  Builds 0x051 8 .vquant (fun _ g => g.b.tag = 31) (fun x _ => x.d.setWidth 6) (fun x _ => vecWidth x / 32)
    (fun x g r j =>
      let v := val (elemAt g.b.v 32 j)
      let sc := f32lo g.e.w
      let q := cvtTag (x.d.toNat % 64) (x.d.getLsbD 6)
      if gov (r.getK x.c.toNat) (vecWidth x / 32) j then
        (if (sc = .zero true ∨ sc = .zero false) ∧ v ≠ .nan then q (.zero v.neg?) else q (v.div sc))
      else 0) ∧
  Reduces 0x052 .vamax (fun x g r v => g.b.tag = 31 ∧
    v.toNat = ((governed (r.getK x.c.toNat) (vecWidth x / 32)).foldl
      (fun m j => fmax32 m (absPat (elemAt g.b.v 32 j))) (0 : BitVec 32)).toNat) ∧
  Builds 0x054 4 .vpair (fun x g => g.b.tag = 31 ∧ (scalarE x = true ∨ g.e.tag = 30)) (fun _ _ => 36)
    (fun x _ => vecWidth x / 64) (fun x g _ j => elemAt g.b.v 32 j + 2 ^ 32 * opElem x g 32 j) ∧
  Builds 0x055 4 .vsplit (fun x g => g.b.tag = 36 ∧ x.d.toNat ≤ 1) (fun x _ => if x.d = 0 then 31 else 30)
    (fun x _ => vecWidth x / 64) (fun x g _ j => elemAt g.b.v 64 j / 2 ^ (32 * x.d.toNat) % 2 ^ 32))
/-- The compares of R127 and the mask forms of R128.

vtopk keeps the best D pairs in rank order behind which fillers stand (R138); vprune keeps the C largest magnitudes of
each D elements, in index order, with their indices in the register of E (R139). -/
def Obligations.VectorMasksAndSelection : Prop :=
  (Compares 0x030 .vcmpeq tagsN (fun t a y => if t = 31 then (val a).eq (val y) = true else elemInt t a = elemInt t y) ∧
  Compares 0x031 .vcmpne tagsN (fun t a y => if t = 31 then (val a).eq (val y) = false else elemInt t a ≠ elemInt t y) ∧
  Compares 0x032 .vcmplt tagsN (fun t a y => if t = 31 then (val a).lt (val y) = true else elemInt t a < elemInt t y) ∧
  Compares 0x033 .vcmple tagsN (fun t a y => if t = 31 then (val a).lt (val y) = true ∨ (val a).eq (val y) = true
    else elemInt t a ≤ elemInt t y) ∧
  Compares 0x034 .vcmpun tagsF (fun _ a y => val a = .nan ∨ val y = .nan) ∧
  WritesK 0x038 .kand (fun x _ r m => ∀ j, j < 128 →
    m.getLsbD j = ((r.getK x.b.toNat).getLsbD j && (r.getK x.c.toNat).getLsbD j)) ∧
  WritesK 0x039 .kor (fun x _ r m => ∀ j, j < 128 →
    m.getLsbD j = ((r.getK x.b.toNat).getLsbD j || (r.getK x.c.toNat).getLsbD j)) ∧
  WritesK 0x03A .kxor (fun x _ r m => ∀ j, j < 128 →
    m.getLsbD j = ((r.getK x.b.toNat).getLsbD j != (r.getK x.c.toNat).getLsbD j)) ∧
  WritesK 0x03B .knot (fun x _ r m => ∀ j, j < 128 → m.getLsbD j = !(r.getK x.b.toNat).getLsbD j) ∧
  WritesS .V 0x03C 2 .kpopc (fun x _ r v =>
    v.toNat = (List.range 128).countP (fun j => (r.getK x.b.toNat).getLsbD j))) ∧
  (Builds 0x090 16 .vtopk (fun x g => (g.b.tag = 31 ∨ g.b.tag = 36) ∧ x.d.toNat ≤ vecWidth x / 64) (fun _ _ => 36) (fun x _ => vecWidth x / 64)
    (fun x g _ j =>
      let ps := if g.b.tag = 31 then (List.range (vecWidth x / 32)).map (fun i => (pat (elemAt g.b.v 32 i), i))
        else (List.range (vecWidth x / 64)).map (fun i => pairOf (elemAt g.b.v 64 i))
      pairBits ((bestPairs x.d.toNat ps).getD j viFiller)) ∧
  (∀ x g s s1 v u s2 s3,
    let t := g.b.tag.toNat
    let w := tagWidth t
    let m := x.d.toNat
    let kept := (List.range (vecWidth x / w / m)).flatMap (fun q =>
      (keepOf x.c.toNat ((List.range m).map (fun j => elemValue t (elemAt g.b.v w (q * m + j))))).map
        (fun j => (keptElem t (elemAt g.b.v w (q * m + j)), j)))
    Ready .V 0x091 x g s s1 → x.st.toNat ≤ 2 → pruneTag t = true → m ≤ vecWidth x / w →
      (w = 4 → 2 * x.c.toNat ≤ m) → Elements v t kept.length (fun j => (kept.getD j (0, 0)).1) →
      Elements u 33 kept.length (fun j => (kept.getD j (0, 0)).2) →
      (s1.charged .V 0x091).putReg x.a.toNat 16 v g.b.tag = .ok s2 → s2.putReg x.e.toNat 16 u 33 = .ok s3 →
      exec (.vprune x) s = .next (s3.commit x (wordOf 0x091 x))))
/-- The moves of R129. The bits 7 and 6 of 6-bit elements in vmov and vtag, and the sign of vext, are the model's reading
(DEDUCED, log entry 16).

The permutes of R136, the compaction of R137 and the selection of R138 and R139. -/
def Obligations.VectorRearranging : Prop :=
  (Builds 0x040 2 .vsel (fun x g => classA g.b.tag.toNat = true ∧ (scalarE x = true ∨ g.e.tag = g.b.tag))
    (fun _ g => g.b.tag) (fun x g => vecWidth x / tagWidth g.b.tag.toNat)
    (fun x g r j =>
      let w := tagWidth g.b.tag.toNat
      if gov (r.getK x.c.toNat) (vecWidth x / w) j then elemAt g.b.v w j else opElem x g w j) ∧
  WritesV 0x041 2 .vmov (fun x g _ v t => classA g.b.tag.toNat = true ∧ t = g.b.tag ∧
    ∀ j, j < 1024 → v.getLsbD j = (decide (j < vecWidth x) && g.b.v.getLsbD j)) ∧
  Builds 0x042 2 .vbcast (fun _ g => classA g.e.tag.toNat = true) (fun _ _ => 0) (fun x _ => vecWidth x / 32)
    (fun _ g _ _ => g.e.w.toNat % 2 ^ 32) ∧
  Reduces 0x043 .vext (fun x g _ v =>
    let t := g.b.tag.toNat
    let w := tagWidth t
    classA t = true ∧
      if vecWidth x / w ≤ g.e.w.toNat then v = 0
      else match elemOf t with
        | .int w true => v.toInt = signed w (elemAt g.b.v (tagWidth t) g.e.w.toNat)
        | _ => v.toNat = fit t (elemAt g.b.v w g.e.w.toNat)) ∧
  WritesV 0x044 2 .vtag (fun x g _ v t => classA g.b.tag.toNat = true ∧ t.toNat = x.d.toNat % 64 ∧
    ∀ j, j < 1024 → v.getLsbD j = (decide (j < vecWidth x) && g.b.v.getLsbD j))) ∧
  (Permutes 0x080 .vperm (fun _ e => e == 30 || e == 33 || e == 34) (fun x g w n j =>
    let we := tagWidth g.e.tag.toNat
    let k := elemAt g.e.v we j
    if k < n ∧ j < vecWidth x / we then elemAt g.b.v w k else 0) ∧
  Permutes 0x081 .vrot (fun _ _ => true) (fun _ g w n j => elemAt g.b.v w ((j + g.e.w.toNat) % n)) ∧
  Permutes 0x082 .vzip (fun b e => b == e) (fun _ g w _ j =>
    if j % 2 = 0 then elemAt g.b.v w (j / 2) else elemAt g.e.v w (j / 2)) ∧
  Permutes 0x083 .vunzip (fun b e => b == e) (fun _ g w n j =>
    if 2 * j < n then elemAt g.b.v w (2 * j) else elemAt g.e.v w (2 * j - n)) ∧
  (∀ x g s s1 v s2 s3,
    let t := g.b.tag.toNat
    let k := (List.range (vecWidth x / tagWidth t)).filter (s.stage.regs.getK x.c.toNat).getLsbD
    Ready .V 0x088 x g s s1 → x.st.toNat ≤ 2 → classA8 t = true →
      Elements v t k.length (fun j => elemAt g.b.v (tagWidth t) (k.getD j 0)) →
      (s1.charged .V 0x088).putReg x.a.toNat 8 v g.b.tag = .ok s2 → s2.putS x.d 8 (BitVec.ofNat 64 k.length) = .ok s3 →
      exec (.vcompress x) s = .next ((s3.putK x.c 8 (BitVec.ofNat 128 (2 ^ k.length - 1))).commit x (wordOf 0x088 x))) ∧
  Builds 0x089 8 .vexpand (fun _ g => classA8 g.b.tag.toNat = true) (fun _ g => g.b.tag)
    (fun x g => vecWidth x / tagWidth g.b.tag.toNat)
    (fun x g r j =>
      let m := r.getK x.c.toNat
      if m.getLsbD j then elemAt g.b.v (tagWidth g.b.tag.toNat) ((List.range j).countP m.getLsbD) else 0))

/-- The reductions of R133 over the governed elements, and the scan of R134. -/
def Obligations.VectorReductions : Prop :=
  Reduces 0x060 .vredsum (fun x g r v =>
    let t := g.b.tag.toNat
    let es := (governed (r.getK x.c.toNat) (vecWidth x / tagWidth t)).map (elemAt g.b.v (tagWidth t))
    classN t = true ∧
      if t = 31 then v.toNat = (round32 (exactSum (es.map val))).toNat
      else v = BitVec.ofInt 64 (es.map (elemInt t)).sum) ∧
  Reduces 0x061 .vredmax (fun x g r v =>
    let t := g.b.tag.toNat
    let es := (governed (r.getK x.c.toNat) (vecWidth x / tagWidth t)).map (elemAt g.b.v (tagWidth t))
    classN t = true ∧
      if t = 31 then v.toNat = ((es.map pat).foldl fmax32 0xFF800000).toNat
      else v = BitVec.ofInt 64 ((es.map (elemInt t)).foldl max (intBounds (tagWidth t) (tagSigned t)).1)) ∧
  Reduces 0x062 .vredmin (fun x g r v =>
    let t := g.b.tag.toNat
    let es := (governed (r.getK x.c.toNat) (vecWidth x / tagWidth t)).map (elemAt g.b.v (tagWidth t))
    classN t = true ∧
      if t = 31 then v.toNat = ((es.map pat).foldl fmin32 0x7F800000).toNat
      else v = BitVec.ofInt 64 ((es.map (elemInt t)).foldl min (intBounds (tagWidth t) (tagSigned t)).2)) ∧
  Builds 0x063 8 .vscan (fun x g => classN g.b.tag.toNat = true ∧ x.d.toNat ≤ 3) (fun _ g => g.b.tag)
    (fun x g => vecWidth x / tagWidth g.b.tag.toNat)
    (fun x g r j =>
      let t := g.b.tag.toNat
      let w := tagWidth t
      let up := if x.d.getLsbD 0 then j else j + 1
      let es := ((governed (r.getK x.c.toNat) (vecWidth x / w)).filter (· < up)).map (elemAt g.b.v w)
      if x.d.getLsbD 1 then redElem t (maxElems t es) else redElem t (sumElems t es))

/-! ## Guards, operands and results -/

/-- The guard of R57, and what a guarded-off syllable of any class does (R58): it is charged, as far as its bundle has not been
charged for it at its issue (R288), and changes nothing else but that its bundle counts as charged.

A no-operation of each class completes: its charge and its hold state, nothing else (R65, R71, R115).

The hold state of the slot on the stage after a syllable that took effect (R65): the syllable where HOLD is set, else
cleared; every other slot's stays. -/
def Obligations.SlotsWithoutEffect : Prop :=
  (∀ (c : Cls) (opc : Nat) (x : Syl) (w : Args → State → Option Stop) (u : Args → State → Nat × Nat)
    (f : Args → State → Except Stop State) (s : State) (t : Task), s.task? s.stage.uid = some t →
    (s.stage.regs.guard x = true ↔
      (s.stage.regs.getP x.ga.toNat ≠ x.na ∧ s.stage.regs.getP x.gb.toNat ≠ x.nb)) ∧
    (s.stage.regs.guard x = false → ∃ s', runUnits c opc x w u f s = .next s' ∧ SameDevice s s' ∧
      s'.fresh = s.fresh ∧ s'.stage.charged = true ∧
      s'.task? s.stage.uid = some (t.charge s.cycle ((s.costOf c opc Cost.plain).goff - s.stage.ahead.bi) 0))) ∧
  (∀ k x g s s1, Ready k 0x000 x g s s1 → exec (.nop k x) s = .next ((s1.charged k 0x000).commit x (wordOf 0x000 x))) ∧
  (∀ (s : State) x w, s.task? s.stage.uid ≠ none → s.stage.slot < 8 → SameDevice s (s.commit x w) ∧
    SameTask s.cur (s.commit x w).cur ∧
    ∀ j, j < 8 → (s.commit x w).cur.flow.hold.getD j ⟨false, 0⟩ =
      if j = s.stage.slot then (if x.hold then ⟨true, w⟩ else ⟨false, 0⟩) else s.cur.flow.hold.getD j ⟨false, 0⟩)
/-- Where an operand comes from (R54, R63, R64, R78): s0 reads zero; an ordinary register as it stood at the bundle's first
issue cycle; s55 and v55 pop the load-data queue, whose entry must be of their kind; a bound input stream gives its next
element; a set LIT bit gives the literal of the header, sign-extended.

Where a result goes (R62, R63, R64, R78): at s0, p0 and k0 nowhere; at an ordinary register, a predicate or a mask it is
under way and lands after its exposed latency; at s54 and v54 a store-data entry is reserved behind the others, whose kind
the store address that it pairs with must have. -/
def Obligations.OperandsAndResults : Prop :=
  ((∀ (s : State), s.readReg 0 = .ok (⟨0, 0⟩, s)) ∧
  (∀ (s : State) n, s.cur.ordinary n false →
    s.readReg n = .ok (⟨s.stage.regs.value n, if n < 64 then 0 else s.stage.regs.getVt (n - 64)⟩, s)) ∧
  (∀ (s : State) n e rest v, n = 55 ∨ n = 119 → s.cur.q.ldata = e :: rest → e.data = some v →
    (e.vec = decide (n = 119) →
      s.readReg n = .ok (⟨v, e.tag⟩, s.onCur (fun t => { t with q := { t.q with ldata := rest } }))) ∧
    (e.vec ≠ decide (n = 119) → s.readReg n = .error (.fault 4 none))) ∧
  (∀ (s : State) n q st e rest v, s.cur.streamAt n false = some (q, st) → st.next < st.count1 * st.count2 → st.buf = e :: rest →
    e.fail = none → e.data = some v →
    s.readReg n = .ok (⟨v, if st.vec then BitVec.ofNat 6 st.es else 0⟩,
      (s.onCur (fun t => t.stream q { st with buf := rest, next := st.next + 1 })).pay 1 (if st.vec then 2 else 1))) ∧
  (∀ (s : State) n q st, s.cur.streamAt n false = some (q, st) → st.count1 * st.count2 ≤ st.next →
    s.readReg n = .error (.fault 15 none)) ∧
  (∀ (s : State) (x : Syl) (f : Kind), isSource f = true → x.lit = true →
    s.readField x 4 f = .ok (⟨vec (s.stage.header.lit.signExtend 64), 0⟩, s))) ∧
  ((∀ (s : State) lat v tag, s.putReg 0 lat v tag = .ok s) ∧
  (∀ (s : State) lat b, s.putP 0 lat b = s) ∧ (∀ (s : State) lat m, s.putK 0 lat m = s) ∧
  (∀ r : Regs, r.getP 0 = true ∧ r.getK 0 = BitVec.allOnes 128) ∧
  (∀ (s : State) n lat v tag, s.task? s.stage.uid ≠ none → s.cur.ordinary n true → ∃ s', s.putReg n lat v tag = .ok s' ∧
    SameDevice s s' ∧ s'.cur = s.cur.under ⟨s.stage.base + lat, regDest n, v, tag⟩) ∧
  (∀ (s : State) n lat b, s.task? s.stage.uid ≠ none → n ≠ 0 → (s.putP n lat b).cur = s.cur.under ⟨s.stage.base + lat, .p n.toNat, vec (if b then 1 else 0), 0⟩) ∧
  (∀ (s : State) n lat m, s.task? s.stage.uid ≠ none → n ≠ 0 → (s.putK n lat m).cur = s.cur.under ⟨s.stage.base + lat, .k n.toNat, m.setWidth 1024, 0⟩) ∧
  (∀ (s : State) n lat v tag, s.task? s.stage.uid ≠ none → n = 54 ∨ n = 118 →
    nthSta s.cur.q.stores s.cur.q.sdata.length = none → ∃ s', s.putReg n lat v tag = .ok s' ∧ SameDevice s s' ∧
      s'.cur.q.sdata = s.cur.q.sdata ++ [⟨s.fresh, decide (n = 118), tag, none⟩] ∧ s'.cur.regs = s.cur.regs ∧
      s'.cur.flow.inflight = s.cur.flow.inflight ++ [⟨s.stage.base + lat, .store s.fresh, v, tag⟩]) ∧
  (∀ (s : State) n lat v tag q va tgt isVec size hint entered, s.task? s.stage.uid ≠ none → n = 54 ∨ n = 118 →
    nthSta s.cur.q.stores s.cur.q.sdata.length = some (.sta q va tgt isVec size hint entered) → isVec ≠ decide (n = 118) →
    s.putReg n lat v tag = .error (.fault 4 none)))

/-- A result lands (R81, R91): in its register alone, which an `s` register takes in its low word and a `v` register with the
tag; a register that a producer has left empty keeps its emptiness and its value; a predicate and a mask take their bits,
p0 and k0 never.

The event in which results land: every result that is due lands and leaves the list of those under way, and no other; a
register that nothing due names keeps its value; of several due in one register the one of the latest cycle stays, of one
cycle the later one (R64, R81).

The fills of R79 and R82: a divider's register takes its value, turns full and has no producer any more; an element of a
latch that is due is delivered, and SHV clears with the last (R331). -/
def Obligations.ResultsLand : Prop :=
  ((∀ (t : Task) n due v tag, 0 < n → n < 128 → t.regs.fullReg n = true →
    (t.land ⟨due, regDest n, v, tag⟩).regs.value n = (if n < 64 then vec (low v) else v) ∧
    (64 ≤ n → (t.land ⟨due, regDest n, v, tag⟩).regs.getVt (n - 64) = tag) ∧
    (t.land ⟨due, regDest n, v, tag⟩).regs.sameBut t.regs n ∧
    ({ t.land ⟨due, regDest n, v, tag⟩ with regs := t.regs } : Task) = t) ∧
  (∀ (t : Task) n due v tag, n < 128 → t.regs.fullReg n = false → t.land ⟨due, regDest n, v, tag⟩ = t) ∧
  (∀ (t : Task) n due v tag, n < 8 →
    (t.land ⟨due, .p n, v, tag⟩).regs = { t.regs with p := (t.land ⟨due, .p n, v, tag⟩).regs.p } ∧
    ∀ m, m < 8 → (t.land ⟨due, .p n, v, tag⟩).regs.getP m =
      if m = n ∧ n ≠ 0 then v.getLsbD 0 else t.regs.getP m) ∧
  (∀ (t : Task) n due v tag, n < 8 →
    (t.land ⟨due, .k n, v, tag⟩).regs = { t.regs with k := (t.land ⟨due, .k n, v, tag⟩).regs.k } ∧
    ∀ m, m < 8 → (t.land ⟨due, .k n, v, tag⟩).regs.getK m =
      if m = n ∧ n ≠ 0 then v.setWidth 128 else t.regs.getK m)) ∧
  (∀ (s : State) c t, s.task? c = some t → t.flow.latches = [] →
    ∃ u, exec (.resultLand c) s = .next (s.setTask c u) ∧ u.pc = t.pc ∧ u.phase = t.phase ∧
      u.flow.inflight = t.flow.inflight.filter (fun l => s.cycle < l.due) ∧
      (∀ n, n < 128 → (∀ l ∈ t.flow.inflight, l.due ≤ s.cycle → l.dest ≠ regDest n) → u.regs.value n = t.regs.value n) ∧
      (∀ n l before behind, 0 < n → n < 128 → t.regs.fullReg n = true → t.flow.inflight = before ++ l :: behind →
        l.dest = regDest n → l.due ≤ s.cycle → (∀ m ∈ before, m.dest = regDest n → m.due ≤ l.due) →
        (∀ m ∈ behind, m.dest = regDest n → s.cycle < m.due ∨ m.due < l.due) →
        u.regs.value n = if n < 64 then vec (low l.data) else l.data)) ∧
  ((∀ (s : State) c t p, s.task? c = some t → t.flow.producers = [p] → p.kind = .divider → p.elem = none → p.due ≤ s.cycle →
    0 < p.reg → p.reg < 64 → ∃ u, exec (.dividerFill c) s = .next (s.setTask c u) ∧ u.flow.producers = [] ∧
      u.regs.getS p.reg = p.val ∧ u.regs.fullReg p.reg = true ∧ u.regs.sameBut t.regs p.reg ∧ u.csr = t.csr) ∧
  (∀ (s : State) c t l k n, s.task? c = some t → t.flow.latches = [l] → t.flow.latchStart = some k → t.flow.inflight = [] →
    k + l.due ≤ s.cycle → l.dest = .s n → 0 < n → n < 64 → t.regs.fullReg n = true →
    ∃ u, exec (.shadowLatchDeliver c) s = .next (s.setTask c u) ∧ u.flow.latches = [] ∧ u.regs.getS n = low l.data ∧
      u.regs.sameBut t.regs n ∧ tswShv u.csr.tsw = false))

/-- The frame of the forms that only write registers: an S-class syllable, `lea`, or a register form of the V class (opcode
below 0x0A0). Where such a form takes effect, is guarded off or does not issue, in whatever state, no byte of memory, no
full/empty line and nothing of the device outside its task changes, no tile, lease, plane, table or counter of a plot among it;
and where the bundle goes on, no register, not the pc and
no control register has changed but for the budgets and their exhaustion bits, until its result lands. A divider marks its
destination empty and takes its turn at the divider of its tiller; a vector paired with a store address translates it, through
the translation cache, whose misses are counted, and lines of the slices (R186), and in the spill window may advance OVFPTR.

The frame of the A class: no form of it but a fault changes a byte of memory, a full/empty bit, a plot (but for its
translation cache and the counter of its misses), another task, a register, the pc or a control register other than the budgets,
their exhaustion bits and OVFPTR; loads and stores perform later, through their queues. -/
def Obligations.Frames : Prop :=
  (∀ i c opc x s s', i.syllable = some (c, opc, x) → c = .S ∨ (c = .A ∧ opc = 0x001) ∨ (c = .V ∧ opc < 0x0A0) →
    s.stage.halt = .run → exec i s = .next s' → s'.stage.halt ≠ .stopped →
      SameDevice s { s' with slices := s.slices, tillers := s.tillers, plots := s.plots } ∧ SamePlots s s' ∧
      (c ≠ .V ∨ (x.a ≠ 118 ∧ x.e ≠ 118) → s'.slices = s.slices ∧ s'.plots = s.plots) ∧
      (¬ (c = .S ∧ 0x010 ≤ opc ∧ opc ≤ 0x013) → s'.tillers = s.tillers) ∧
      (∀ n, ({ s'.tiller n with divAt := (s.tiller n).divAt } : Tiller) = s.tiller n) ∧
      (s'.stage.halt = .run → ¬ (c = .S ∧ 0x010 ≤ opc ∧ opc ≤ 0x013) →
        SameTask s.cur { s'.cur with csr := { s'.cur.csr with ovfptr := s.cur.csr.ovfptr } } ∧
        (c ≠ .V ∨ (x.a ≠ 118 ∧ x.e ≠ 118) → s'.cur.csr.ovfptr = s.cur.csr.ovfptr)) ∧
      (s'.stage.halt = .run → c = .S → 0x010 ≤ opc → opc ≤ 0x013 → s'.cur.pc = s.cur.pc ∧ s'.cur.phase = s.cur.phase ∧
        SameControl s.cur.csr s'.cur.csr ∧ s'.cur.flow.inflight = s.cur.flow.inflight ∧
        ∀ n, n < 128 → s'.cur.regs.value n = s.cur.regs.value n ∧
          (n ≠ x.a.toNat → s'.cur.regs.fullReg n = s.cur.regs.fullReg n))) ∧
  (∀ i opc x s s', i.syllable = some (.A, opc, x) → s.stage.halt = .run → exec i s = .next s' → s'.stage.halt ≠ .stopped →
    (∀ a, s'.at a = s.at a) ∧ s'.empties = s.empties ∧ SamePlots s s' ∧ (∀ n, n ≠ s.stage.uid → s'.task? n = s.task? n) ∧
    s'.cur.pc = s.cur.pc ∧ (∀ n, n < 128 → s'.cur.regs.value n = s.cur.regs.value n) ∧
    (∀ n, n < 64 → s'.cur.regs.getVt n = s.cur.regs.getVt n) ∧ s'.cur.regs.p = s.cur.regs.p ∧ s'.cur.regs.k = s.cur.regs.k ∧
    SameControl s.cur.csr { s'.cur.csr with ovfptr := s.cur.csr.ovfptr })
/-- What a charge does (R289): each budget falls by the units charged, to zero at the least; where a positive charge leaves
a budget at zero its exhaustion bit and YPEND are set, again where they stood cleared, and a positive charge against a budget
already at zero does the same; a charge of 0 changes neither budget nor the status word, and no charge touches another
control register. -/
def Obligations.Charging : Prop :=
  ∀ (t : Task) now bi bm, SameControl t.csr (t.charge now bi bm).csr ∧
    (t.charge now bi bm).csr.bi.toNat = getBits t.csr.bi 0 48 - bi ∧
    (t.charge now bi bm).csr.bm.toNat = getBits t.csr.bm 0 48 - bm ∧
    (bi = 0 → bm = 0 → (t.charge now bi bm).csr.tsw = t.csr.tsw) ∧
    (tswBexh (t.charge now bi bm).csr.tsw = true ↔ tswBexh t.csr.tsw = true ∨ (0 < bi ∧ getBits t.csr.bi 0 48 ≤ bi)) ∧
    (tswMexh (t.charge now bi bm).csr.tsw = true ↔ tswMexh t.csr.tsw = true ∨ (0 < bm ∧ getBits t.csr.bm 0 48 ≤ bm)) ∧
    (tswYpend (t.charge now bi bm).csr.tsw = true ↔ tswYpend t.csr.tsw = true ∨ (0 < bi ∧ getBits t.csr.bi 0 48 ≤ bi) ∨
      (0 < bm ∧ getBits t.csr.bm 0 48 ≤ bm)) ∧
    (∀ n, n < 64 → n ≠ 6 → n ≠ 7 → n ≠ 8 → (t.charge now bi bm).csr.tsw.getLsbD n = t.csr.tsw.getLsbD n)

/-! ## Control flow -/

/-- The branches of R108, with their fields and FEM bits: the target, one further cycle on the issue stage, and for `call` the address behind the bundle.

Jumps through the tables of the active plane (R112, R257, R259): the entry's target and two further cycles; without a valid
plane, the kernel, the phase or a present entry the schedule-table fault, with nothing of slot C done. -/
def Obligations.Jumps : Prop :=
  (((∀ opc, opc = 0x002 ∨ opc = 0x004 → kindsOf .C opc = [.z, .sS, .z, .z, .z] ∧
      (kindsOf .C opc).map Kind.fem = [false, true, false, false, false]) ∧
    kindsOf .C 0x001 = [.z, .z, .z, .z, .eS] ∧ kindsOf .C 0x003 = [.dS, .z, .z, .z, .eS] ∧
    (kindsOf .C 0x001).map Kind.fem = [false, false, false, false, true] ∧
    (kindsOf .C 0x003).map Kind.fem = [false, false, false, false, true]) ∧
  Acts .C 0x001 .br (fun _ g s s' => s' = s.taken (s.cur.pc + g.e.w) 1) ∧
  Acts .C 0x002 .bri (fun _ g s s' => s' = s.taken g.b.w 1) ∧
  Acts .C 0x003 .call (fun x g s s' => ∃ s2, s.putS x.a 1 s.behindBundle = .ok s2 ∧
    s' = s2.taken (s.cur.pc + g.e.w) 1) ∧
  Acts .C 0x004 .ret (fun _ g s s' => s' = s.taken g.b.w 1)) ∧
  (Acts .C 0x011 .phase (fun x _ s s' =>
    let p := s.curPlane
    let ke := p.word (0x100 + 8 * (s.cur.job.kernel % 64))
    let e (c : Nat) : Word := p.word (0x41000 + 8 * (ke.toNat / 2 ^ 32 % 2 ^ 10 + 8 * x.d.toNat + c))
    p.valid = true ∧ ke.getLsbD 63 = true ∧ x.d.toNat < ke.toNat / 2 ^ 48 % 2 ^ 8 ∧
      ∃ c, ScheduleEntry e (s.cur.csr.live.toNat % 2 ^ 11) c ∧ s' = s.taken (address (e c)) 2) ∧
  Stops .C 0x011 .phase (fun x _ s =>
    let p := s.curPlane
    let ke := p.word (0x100 + 8 * (s.cur.job.kernel % 64))
    let e (c : Nat) : Word := p.word (0x41000 + 8 * (ke.toNat / 2 ^ 32 % 2 ^ 10 + 8 * x.d.toNat + c))
    p.valid = false ∨ ke.getLsbD 63 = false ∨ ke.toNat / 2 ^ 48 % 2 ^ 8 ≤ x.d.toNat ∨
      ∀ c, ¬ ScheduleEntry e (s.cur.csr.live.toNat % 2 ^ 11) c) (.fault 23 none) ∧
  Acts .C 0x020 .jtab (fun _ g s s' =>
    let e := s.curPlane.word (0x43200 + 8 * g.b.w.toNat)
    s.curPlane.valid = true ∧ g.b.w.toNat < 256 ∧ e.getLsbD 63 = true ∧ s' = s.taken (address e) 2) ∧
  Stops .C 0x020 .jtab (fun _ g s => s.curPlane.valid = false ∨ 256 ≤ g.b.w.toNat ∨
    (s.curPlane.word (0x43200 + 8 * g.b.w.toNat)).getLsbD 63 = false) (.fault 23 none) ∧
  Acts .C 0x020 .jtabRes (fun _ g s s' =>
    let e := s.curPlane.word (0x43200 + 8 * (g.b.w.toNat / 2 ^ 48 % 2 ^ 8))
    g.b.w.getLsbD 63 = true ∧ s.curPlane.valid = true ∧ e.getLsbD 63 = true ∧ s' = s.taken (address e) 2) ∧
  Stops .C 0x020 .jtabRes (fun _ g s => g.b.w.getLsbD 63 = false ∨ s.curPlane.valid = false ∨
    (s.curPlane.word (0x43200 + 8 * (g.b.w.toNat / 2 ^ 48 % 2 ^ 8))).getLsbD 63 = false) (.fault 23 none))

/-- The loop forms of R110 with their counts, the body skipped where the count is zero.

Where a task goes on after a bundle that has committed whole (R55, R65, R107): at the target of a taken branch, with
LEND not performed and hold state cleared; else at the loop's start while its count is above 1, which falls by one; else
behind the bundle with the count 0, or behind the loop body that a zero count skipped. -/
def Obligations.LoopsAndNextAddress : Prop :=
  (Acts .C 0x008 .loop (fun x g s s' => Loops x.b.toNat (min g.e.w.toNat (2 ^ 32 - 1)) s s') ∧
  Acts .C 0x009 .loopl (fun x g s s' =>
    let r := max 1 (min g.e.w.toNat 1024)
    Loops x.b.toNat ((s.cur.csr.live.toNat % 2 ^ 11 + r - 1) / r) s s')) ∧
  (∀ (t : Task) (g : Stage), g.ending = false → g.returning = false →
    (t.after g).regs = t.regs ∧ (t.after g).q = t.q ∧ (t.after g).phase = .ready ∧
    (∀ a, g.branch = some a → (t.after g).pc = a ∧ (t.after g).csr = t.csr ∧ (t.after g).flow.hold = noHold) ∧
    (g.branch = none → g.header.lend = 0 → (t.after g).csr = t.csr ∧ (t.after g).flow.hold = t.flow.hold ∧
      (t.after g).pc = g.skip.getD (t.pc + BitVec.ofNat 64 (bundleLength g.header.present))) ∧
    (∀ n, g.branch = none → g.header.lend.toNat = n + 1 → n < 4 → (t.after g).flow.hold = t.flow.hold ∧
      (∀ m, m < 4 → m ≠ n → (t.after g).csr.loopc.getD m 0 = t.csr.loopc.getD m 0) ∧
      (1 < (t.csr.loopc.getD n 0).toNat → (t.after g).pc = t.flow.loopStart.getD n 0 ∧
        ((t.after g).csr.loopc.getD n 0).toNat = (t.csr.loopc.getD n 0).toNat - 1) ∧
      ((t.csr.loopc.getD n 0).toNat ≤ 1 → (t.after g).csr.loopc.getD n 0 = 0 ∧
        (t.after g).pc = g.skip.getD (t.pc + BitVec.ofNat 64 (bundleLength g.header.present)))))

/-- The barrier (R111): `bar` waits until the barrier has let its task pass, then goes on; the barrier lets every member of a
gang that is not Aborted pass once all of them have arrived, and while one of them has not it changes nothing; one that ends is
awaited until it is Done. -/
def Obligations.Barrier : Prop :=
  (∀ x g s s1, Ready .C 0x010 x g s s1 → s.cur.job.passed = true → exec (.bar x) s =
    .next (((s1.charged .C 0x010).onCur (fun t => { t with job := { t.job with passed := false, arrived := false } })).commit x
      (wordOf 0x010 x))) ∧
  (∀ x g s s1, Ready .C 0x010 x g s s1 → s.stage.checked = false → s.cur.job.passed = false →
    exec (.bar x) s = .next (s.stop (.block .barrier) (wordOf 0x010 x))) ∧
  (∀ slot group (s : State), (∃ e ∈ s.tasks, e.2.job.slot = slot ∧ e.2.job.group = group ∧ e.2.phase ≠ .aborted) →
    (∀ e ∈ s.tasks, e.2.job.slot = slot → e.2.job.group = group → e.2.phase ≠ .aborted → e.2.job.arrived = true) →
    ∃ s', exec (.barrierComplete slot group) s = .next s' ∧ s'.mem = s.mem ∧
      ∀ n t, s.task? n = some t → s'.task? n = some (if t.job.slot = slot ∧ t.job.group = group ∧ t.phase ≠ .aborted
        then { t with job := { t.job with arrived := false, passed := true } } else t)) ∧
  (∀ slot group (s : State), (∃ e ∈ s.tasks, e.2.job.slot = slot ∧ e.2.job.group = group ∧ e.2.phase ≠ .aborted ∧
    e.2.job.arrived = false) → exec (.barrierComplete slot group) s = .next s)

/-- A read of a control register (R83, R85, R114): at PL at least the read level the value as it stands for the bundle, with
an exposed latency of 2; below it the privilege fault; a number that the table does not hold is an illegal syllable. That
the value stands as at the bundle's start is the model's reading of R114 (DEDUCED, log entry 30).

The writes of control registers (R83, R91, R114), and the privilege fault below the write level, at a register that no
level writes, and for a carve-out past 768 KiB (R85).

What a write leaves in a control register (R84, R85): the reserved and RO fields as they were or zero, PL of TSW always;
PREQ, MEXH and BEXH are cleared by a one and set by nothing; a zero to YPEND counts only where none of the three is left;
an SRES of 8 to 15 is ignored; YPMAX holds at least 256; every other register stays. -/
def Obligations.ControlRegisters : Prop :=
  (Acts .C 0x018 .csrr (fun x g s s' => ∃ r l, (g.e.w.toNat, r, l) ∈ csrTable ∧ r ≤ s.cur.pl ∧
    s.putS x.a 2 (s.stage.csr.get g.e.w.toNat) = .ok s') ∧
  Stops .C 0x018 .csrr (fun _ g s => ∃ r l, (g.e.w.toNat, r, l) ∈ csrTable ∧ s.cur.pl < r) (.fault 5 none) ∧
  Stops .C 0x018 .csrr (fun _ g _ => ∀ r l, (g.e.w.toNat, r, l) ∉ csrTable) (.fault 1 none)) ∧
  (WritesCsr 0x019 .csrw (fun _ b => b) (fun b => b) ∧
  WritesCsr 0x01A .csrs (fun o b => o ||| b) (fun b => b) ∧
  WritesCsr 0x01B .csrc (fun o b => o &&& ~~~b) (fun _ => 0) ∧
  (∀ opc i, (opc, i) ∈ [(0x019, Instr.csrw), (0x01A, Instr.csrs), (0x01B, Instr.csrc)] →
    Stops .C opc i (fun _ g s => ∃ r l, (g.e.w.toNat, r, l) ∈ csrTable ∧ s.cur.pl < l ∧ s.cur.pl ≤ 2) (.fault 5 none) ∧
    Stops .C opc i (fun _ g _ => ∀ r l, (g.e.w.toNat, r, l) ∉ csrTable) (.fault 1 none)) ∧
  Stops .C 0x019 .csrw (fun _ g s => g.e.w = 0x11 ∧ 1 ≤ s.cur.pl ∧
    12288 < getBits s.cur.csr.spillbase 6 14 + getBits g.b.w 6 14) (.fault 5 none)) ∧
  ((∀ (c : Csrs) w ones,
    let t := (c.put 0 w ones).tsw
    (∀ i, i < 64 → 16 ≤ i ∨ i = 4 ∨ i = 5 ∨ i = 10 → t.getLsbD i = c.tsw.getLsbD i) ∧
    (∀ i, i = 7 ∨ i = 8 ∨ i = 9 → t.getLsbD i = (c.tsw.getLsbD i && !ones.getLsbD i)) ∧
    tswFcode t = getBits w 11 5 ∧ tswSres t = (if getBits w 0 4 < 8 then getBits w 0 4 else tswSres c.tsw) ∧
    t.getLsbD 6 = (w.getLsbD 6 || (c.tsw.getLsbD 6 && (t.getLsbD 7 || t.getLsbD 8 || t.getLsbD 9)))) ∧
  (∀ (c : Csrs) n w ones m, (∃ r l, (n, r, l) ∈ csrTable) → (∃ r l, (m, r, l) ∈ csrTable) → m ≠ n →
    (c.put n w ones).get m = c.get m) ∧
  (∀ (c : Csrs) w ones, (c.put 4 w ones).ypmax.toNat = max 256 (w.toNat % 2 ^ 32)) ∧
  (∀ (c : Csrs) n w ones, n ∈ [0x18, 0x19, 0x1A] → c.put n w ones = c))

/-! ## Traps, yields, the end of a task -/

/-- The trap-class forms of R333 and `end` (R113): `trap` enters the handler behind its bundle, with FCODE 30, SRES 0 and the
operand in FADDR; `rett` returns at its bundle's end where every load and paired store of the handler is done and no producer of
s48 to s53 is outstanding, waits until then and faults outside a handler; `yield` sets YPEND; `synct` tests a full/empty bit at
home; `end` goes where no error is recorded, with the task ended behind its bundle, and raises a recorded Acre error. The
cycles that synct holds are the model's (DESIGN CHOICE, log entry 2), and so is a full/empty bit of another package (log
entry 21). -/
def Obligations.TrapForms : Prop :=
  Acts .C 0x028 .trap (fun _ g s s' => s' = { s with stage := { s.stage with trapAfter := some (address g.e.w) } }) ∧
  (∀ (s : State) t u a entry, s.bundleEnds t u → s.stage.returning = false → s.stage.ending = false →
    s.stage.trapAfter = some a →
    let now := s.stage.cycle + s.stage.heldFor s.cycle
    let v := (u.after s.stage).landDue now
    v.traps s entry → s.trapped s.stage.uid v ⟨30, 0, v.pc, none, some a⟩ entry s.endBundle) ∧
  Acts .C 0x029 .rett (fun _ _ s s' => s.cur.flow.inHandler = true ∧ s.cur.q.settled ∧ s.cur.restorable ∧
    s' = { s with stage := { s.stage with returning := true, extra := s.stage.extra + 3 } }) ∧
  Stops .C 0x029 .rett (fun _ _ s => s.cur.flow.inHandler = false) (.fault 5 none) ∧
  Stops .C 0x029 .rett (fun _ _ s => s.cur.flow.inHandler = true ∧ ¬ s.cur.q.settled ∧ s.cur.restorable) .suspend ∧
  (∀ x g s s1, Ready .C 0x029 x g s s1 → s.stage.checked = false → s.cur.flow.inHandler = true → ¬ s.cur.restorable →
    ∃ n, 48 ≤ n ∧ n ≤ 53 ∧ s.cur.pending n = true ∧ exec (.rett x) s = .next (s.stop (.block (.reg n)) (wordOf 0x029 x))) ∧
  (∀ (s : State) t u, s.bundleEnds t u → s.stage.returning = true → s.stage.ending = false → s.stage.trapAfter = none →
    t.flow.inHandler = true → ∃ w, s.endBundle.task? s.stage.uid = some w ∧ w.pc = u.leaveHandler.pc ∧
      w.regs = u.leaveHandler.regs ∧ w.csr = u.leaveHandler.csr ∧ w.q = u.leaveHandler.q ∧ w.flow = u.leaveHandler.flow) ∧
  Acts .C 0x02A .yield (fun _ _ s s' =>
    s' = s.onCur (fun t => { t with csr := { t.csr with tsw := t.csr.tsw ||| 0x40 } })) ∧
  Completes .C 0x02B .synct (fun _ _ _ => (Cost.plain, 1)) (fun _ _ s => s.cur.invalidating = false) (fun x g s s' =>
    ∃ r p ps, g.b.w.toNat % 8 = 0 ∧ s.resolve s.cur .read g.b.w 8 = .ok r ∧ r.tgt = .mem (p :: ps) ∧
      (∀ q ∈ p :: ps, q.fe = true) ∧ s.needsFabric p.pa = false ∧ s.isRemote p.pa = false ∧
      s.holds s.stage.uid s.cur.q.seq (p.pa / 64) = false ∧
      s' = ((s.putP x.a 1 (!s.empties.contains (p.pa / 64))).keepStage (s.latency s.cur p.pa)).resolved s.stage.uid r) ∧
  Acts .C 0x012 .endTask (fun _ _ s s' =>
    let y := s.tiller s.cur.tiller
    s.acreError s.stage.uid = none ∧ (∀ e ∈ y.maps, e.2.owner = some s.stage.uid → (y.map e.1).err = none) ∧
      s' = (let s1 := s.releaseLease s.cur.plot s.stage.uid
            { s1 with stage := { s1.stage with ending := true } })) ∧
  (∀ (s : State) t u, s.bundleEnds t u → s.stage.returning = false → s.stage.ending = true →
    ∃ w, s.endBundle.task? s.stage.uid = some w ∧ w.phase = .ended ∧ w.regs = t.regs ∧ w.q = t.q ∧ w.ctx = t.ctx) ∧
  Halts .C 0x012 .endTask plainCost unconditional (fun _ _ s e =>
    ∃ r, s.acreError s.stage.uid = some r ∧ e = .record 19 r.addr r.syl none)

/-- Taking an exception (R327 to R329): in a task outside its handler whose fragment table has entry 255, with no paired
store left to perform, the handler is entered and the frame written to the context's save area; in its handler, or without that entry, the gang aborts. The cycles of an
entry count bytes as the model reads R329 (DEDUCED, log entry 11).

The faults that events deliver: an instruction-fetch fault with code 2 at slot 0, a late-access record with code 16
(R52, R190).

A header without a present slot and without hold state is a bundle (R66, R287): a charge of 1, and nothing else before
its end. -/
def Obligations.ExceptionEntry : Prop :=
  ((∀ (s : State) uid t r now entry, s.task? uid = some t → t.traps s entry → s.trapped uid t r entry (s.trapTask uid r now)) ∧
  (∀ (s : State) uid t r now, s.task? uid = some t → t.phase ≠ .aborted → t.flow.inHandler = true →
    s.aborted t r.code 7 (r.faddr.getD t.csr.faddr).toNat (s.trapTask uid r now)) ∧
  (∀ (s : State) uid t r now, s.task? uid = some t → t.phase ≠ .aborted → t.flow.inHandler = false → s.handlerEntry t = none →
    s.aborted t r.code 0 (r.faddr.getD t.csr.faddr).toNat (s.trapTask uid r now)) ∧
  ∀ (s : State) t entry, s.handlerEntry t = some entry ↔
    ((s.plot t.plot).active.word 0x439F8).getLsbD 63 = true ∧ entry = address ((s.plot t.plot).active.word 0x439F8)) ∧
  ((∀ (s : State) a t entry, s.task? s.stage.uid = some t → t.traps s entry → ∃ s', exec (.instructionFetchFault a) s = .next s' ∧
    s.trapped s.stage.uid t ⟨2, 0, t.pc, none, some a⟩ entry s' ∧ s'.stage.halt = .stopped) ∧
  (∀ (s : State) c t va rest entry, s.task? c = some t → t.phase = .ready ∨ (∃ w, t.phase = .blocked w) →
    t.flow.lates = va :: rest → t.traps s entry → ∃ s', exec (.lateAccessFault c) s = .next s' ∧
      s.trapped c t ⟨16, 0, t.pc, none, some va⟩ entry s' ∧ ∃ u, s'.task? c = some u ∧ u.flow.lates = rest)) ∧
  (∀ (s : State) h hd t, s.task? s.stage.uid = some t → decodeHeader h = .ok hd → (∀ i, i < 8 → (t.flow.hold.getD i ⟨false, 0⟩).valid = false) →
    ∃ s', exec (.headerAloneBundle h) s = .next s' ∧ SameDevice s s' ∧ s'.task? s.stage.uid = some (t.charge s.cycle (1 - s.stage.ahead.bi) 0) ∧
      s'.stage.header = hd ∧ s'.stage.charged = true)
/-- The return from a handler (R333): the pc, PL, s48 to s53, p7, LOOPC, the loop starts and the hold state of the frame, the
saved queues, and the bundle entered again at the slot of SRES.

The life of a yield: a task that meets the conditions is saved, with YPEND cleared, its pc kept and its store queues
empty (R291, R331); once its image is written it is Yielded, without its context where it is alone in its gang (R27, R292);
it resumes at a context that R27 allows with what its image says (R87, R293, R335): the pc, the `s` and `v` registers with their
tags and full/empty bits, those outside the live masks zero, full and raw, the control registers, with BEXH, MEXH and PREQ as R293
says; and its predicates and masks as they were saved; an image whose CHECK does not match aborts it with CAUSE 6. What of an
image stays in the model's record of the task, and what an edited word leaves in a control register, is the model's (DESIGN
CHOICE, log entries 10, 26 and 49). -/
def Obligations.ReturnsAndYields : Prop :=
  (∀ (t : Task) (f : Frame), t.flow.frame = f →
    let u := t.leaveHandler
    u.pc = f.pc ∧ u.flow.inHandler = false ∧ u.flow.hold = f.hold ∧ u.csr.loopc = f.loopc ∧ u.flow.loopStart = f.loopStart ∧
    u.flow.resume = tswSres t.csr.tsw ∧ u.flow.again = true ∧ tswPl u.csr.tsw = tswPl f.tsw ∧
    (∀ i, i < 64 → i ≠ 4 → i ≠ 5 → u.csr.tsw.getLsbD i = t.csr.tsw.getLsbD i) ∧
    (∀ i, i < 6 → u.regs.getS (48 + i) = f.s.getD i 0) ∧ u.regs.getP 7 = f.p7 ∧
    (∀ n, n < 128 → n < 48 ∨ 53 < n → u.regs.value n = t.regs.value n) ∧ (∀ n, n < 7 → u.regs.getP n = t.regs.getP n) ∧
    u.regs.k = t.regs.k ∧ u.q.ldata = f.ldata ∧ u.q.sdata = f.sdata ∧
    (t.q.loads = [] → t.q.stores = [] → u.q.loads = f.loads ∧ u.q.stores = f.stores)) ∧
  ((∀ (s : State) c t, s.task? c = some t → t.phase = .quiescing → s.yieldReady c t = true →
    ∃ s' u, exec (.yieldTaken c) s = .next s' ∧ s'.task? c = some u ∧ u.phase = .saving ∧ u.pc = t.pc ∧
      u.csr.tsw.getLsbD 6 = false ∧ u.q.stores = [] ∧ u.q.sdata = [] ∧ u.q.ldata = t.q.ldata.take t.job.qlive ∧
      ∀ a, s'.at a = s.at a) ∧
  (∀ (s : State) c t, s.task? c = some t → t.phase = .saving →
    ∃ s' u, exec (.contextSaveComplete c) s = .next s' ∧ s'.task? c = some u ∧ u.phase = .yielded ∧ u.regs = t.regs ∧
      u.job.savedAt = s.saveBase t.no ∧ u.ctx = (if (s.slot t.job.slot).size = 1 then none else t.ctx)) ∧
  (∀ (s : State) c t n, s.task? c = some t → t.phase = .yielded →
    let a := t.job.savedAt
    exhausted (s.word (a + 0x40)) (s.word (a + 0x50)) (s.word (a + 0x58)) = false → s.resumeAt c t = some n →
    (s.imageCheck a = BitVec.ofNat 32 (leNat (s.bytes (a + 0x5F00) 4)) → t.job.lease = none →
      ∃ s' u, exec (.contextResume c) s = .next s' ∧ s'.task? c = some u ∧ u.phase = .ready ∧ u.ctx = some n ∧
        u.pc = address (s.word (a + 0x30)) ∧ u.csr.taskid.toNat = n % 2 ^ 64 ∧ ResumedRegs s a t.regs u.regs ∧
          ResumedCsrs s a u.csr ∧ (t.ctx ≠ none → u.csr.spillbase = s.word (a + 0xC0) &&& csrMask 0x10)) ∧
    (s.imageCheck a ≠ BitVec.ofNat 32 (leNat (s.bytes (a + 0x5F00) 4)) →
      ∃ s', exec (.contextResume c) s = .next s' ∧ s.aborted t 31 6 t.csr.faddr.toNat s' ∧ s'.gone c)))

/-- The events that end tasks or ask for a yield: a pre-emption request sets PREQ and YPEND (R84); a yield-distance fault, an
abort and an uncorrectable error take a gang away (R25, R85, R337); a grid fault takes every task of the grid away and frees
its slot (R15); a task at its end with everything complete leaves (R113). -/
def Obligations.TaskEnds : Prop :=
  (∀ (s : State) c t, s.task? c = some t → t.phase ≠ .yielded → t.phase ≠ .saving → exec (.preemptRequest c) s =
    .next (s.setTask c { t with csr := { t.csr with tsw := t.csr.tsw ||| 0x240 } })) ∧
  (∀ (s : State) c t, s.task? c = some t → t.phase ≠ .yielded → t.phase ≠ .saving → t.phase ≠ .ended →
    t.phase ≠ .aborted → (∀ h ∈ s.held, h.2.uid ≠ c) → t.csr.ypmax.toNat % 2 ^ 32 < t.csr.ypcnt.toNat % 2 ^ 32 →
    ∃ s', exec (.yieldDistanceFault c) s = .next s' ∧ s.aborted t 29 0 t.csr.faddr.toNat s' ∧ s'.gone c) ∧
  (∀ (s : State) c t code cause addr, s.task? c = some t → t.phase ≠ .aborted → code < 32 → cause < 8 →
    ∃ s', exec (.gangAbort c code cause addr) s = .next s' ∧ s.aborted t code cause addr s' ∧ s'.gone c) ∧
  (∀ (s : State) n cause, cause < 8 → (s.slot n).st = 3 ∨ (s.slot n).st = 4 →
    ∃ s', exec (.gridFault n cause) s = .next s' ∧ (s'.slot n).v = false ∧
      ∀ e ∈ s.tasks, s.task? e.1 = some e.2 → e.2.phase ≠ .aborted → e.2.job.slot = n → e.2.job.grid = (s.slot n).grid →
        s'.gone e.1) ∧
  (∀ (s : State) c t, s.task? c = some t → ∃ s', exec (.uncorrectableError (.task c)) s = .next s' ∧
    ∀ e, s.membersOf t e → s'.gone e.1) ∧
  (∀ (s : State) p, ∃ s', exec (.uncorrectableError (.plot p)) s = .next s' ∧
    ∀ e ∈ s.tasks, s.task? e.1 = some e.2 → e.2.phase ≠ .aborted → (∃ c, e.2.ctx = some c ∧ c / 32 = p) → s'.gone e.1) ∧
  (∀ (s : State) c t, s.task? c = some t → t.phase = .ended → t.q.sdata = [] → s.ended c t = true →
    (s.plot t.plot).leaseOf c = none →
    (∀ e ∈ (s.tiller t.tiller).maps, e.2.owner = some c → ((s.tiller t.tiller).map e.1).err = none) →
    ∃ s', exec (.taskDone c) s = .next s' ∧ s'.task? c = none)

/-! ## Memory -/

/-- Loads and stores at their issue (R190, R192 to R199): the address checked and translated, its entry behind those of its
queue, the access count raised; a vector store whose data is not reserved yet is checked later; a prefetch looks its lines up,
those at home at once, or is dropped.

Atomics and sync-word forms at their issue (R200 to R202): a sync-word form goes only to sync pages, and one that writes
its line is checked as a write. -/
def Obligations.MemoryForms : Prop :=
  (Accesses 0x010 .lda (fun x g s => accessBm s (ea g x) (2 ^ x.d.toNat) 1) (fun x g s s' =>
    ∃ r, (ea g x).toNat % 2 ^ x.d.toNat = 0 ∧ s.resolve s.cur .read (ea g x) (2 ^ x.d.toNat) x.ch.toNat = .ok r ∧
      s' = (s.reserveLoad false 0).pushLoad (ea g x) r (2 ^ x.d.toNat) (.data s.fresh false x.d.toNat) x.ch.toNat) ∧
  Accesses 0x011 .ldav (fun x g s => accessBm s (ea g x) (regBytes x.d.toNat) 2) (fun x g s s' =>
    let len := if 10 ≤ x.d.toNat ∧ x.d.toNat ≤ 17 then 96 else 128
    ∃ r, s.resolve s.cur .read (ea g x) len x.ch.toNat = .ok r ∧
      s' = (s.reserveLoad true (BitVec.ofNat 6 x.d.toNat)).pushLoad (ea g x) r len (.data s.fresh true x.d.toNat)
        x.ch.toNat) ∧
  Accesses 0x012 .sta (fun x g s => accessBm s (ea g x) (2 ^ x.d.toNat) 1) (fun x g s s' =>
    ∃ r, (ea g x).toNat % 2 ^ x.d.toNat = 0 ∧ s.resolve s.cur .write (ea g x) (2 ^ x.d.toNat) x.ch.toNat = .ok r ∧
      (∀ e, s.cur.q.sdata[countSta s.cur.q.stores]? = some e → e.vec = false) ∧
      s' = (s.pushStore (ea g x) r.tgt false (2 ^ x.d.toNat) x.ch.toNat).resolved s.stage.uid r) ∧
  Completes .A 0x012 .staV (fun x g s => (Cost.plain, accessBm s (ea g x)
      ((s.cur.q.sdata[countSta s.cur.q.stores]?).elim 128 (fun e => regBytes e.tag.toNat)) 2))
    (fun _ _ s => s.cur.invalidating = false) (fun x g s s' =>
      (s.cur.q.sdata[countSta s.cur.q.stores]? = none ∧
        s' = s.pushStore (ea g x) (s.cur.q.bindingAt (ea g x).toNat) true 0 x.ch.toNat) ∨
      ∃ e r, s.cur.q.sdata[countSta s.cur.q.stores]? = some e ∧ e.vec = true ∧
        s.resolve s.cur .write (ea g x) (regBytes e.tag.toNat) x.ch.toNat = .ok r ∧
        s' = (s.pushStore (ea g x) r.tgt true 0 x.ch.toNat).resolved s.stage.uid r) ∧
  Acts .A 0x013 .mark (fun _ _ s s' => s' = s.pushMarker false 0 0 (.mem []) .mark) ∧
  Accesses 0x014 .pref (fun x _ _ => 2 ^ x.d.toNat / 64) (fun x g s s' =>
    let a : Word := BitVec.ofNat 64 ((ea g x).toNat / 64 * 64)
    (∃ r, s.resolve s.cur .read a (2 ^ x.d.toNat) x.ch.toNat = .ok r ∧
      s' = (r.tgt.pieces.flatMap lineParts).foldl (fun s p => s.prefLine s.cur.no a p) (s.resolved s.stage.uid r)) ∨
    (∃ e, s.resolve s.cur .read a (2 ^ x.d.toNat) x.ch.toNat = .error e ∧ s' = s)) ∧
  (∀ (s : State) src va p, s.home p.pa → s.prefLine src va p = s.touch [p]) ∧
  Completes .A 0x015 .ldr (fun x g s => (Cost.plain, if 64 ≤ x.a.toNat then accessBm s (ea g x) (regBytes x.d.toNat) 2
      else accessBm s (ea g x) (2 ^ x.d.toNat) 1)) (fun _ _ s => s.cur.invalidating = false) (fun x g s s' =>
    let len := if 64 ≤ x.a.toNat then regBytes x.d.toNat else 2 ^ x.d.toNat
    ∃ r s1, (x.a.toNat < 64 → (ea g x).toNat % len = 0) ∧ s.resolve s.cur .read (ea g x) len x.ch.toNat = .ok r ∧
      s.produce .ldr x.a.toNat 0 0 (BitVec.ofNat 6 x.d.toNat) = .ok s1 ∧
      s' = s1.pushLoad (ea g x) r len (.reg s.fresh x.a.toNat x.d.toNat) x.ch.toNat)) ∧
  ((∀ opc i, (opc, i) ∈ [(0x020, Instr.amoadd), (0x021, Instr.amoswap), (0x022, Instr.amocas), (0x023, Instr.amomin),
      (0x024, Instr.amomax), (0x025, Instr.amoand), (0x026, Instr.amoor), (0x027, Instr.amoxor)] →
    Marks opc i (fun _ => .write) wordSize false (fun x => x.a.toNat)
      (fun x g d => .amo opc (wordSize x) (x.d.getLsbD 2) g.c.w g.e.w d)) ∧
  Marks 0x030 .ldfe (fun x => if x.d.getLsbD 2 then .write else .read) wordSize true (fun x => x.a.toNat)
    (fun x _ d => .ldfe (wordSize x) (x.d.getLsbD 2) d) ∧
  Marks 0x031 .stfe (fun _ => .write) wordSize true (fun _ => 0) (fun x g _ => .stfe (wordSize x) (x.d.getLsbD 2) g.e.w) ∧
  Marks 0x032 .setf (fun _ => .write) (fun _ => 64) true (fun _ => 0) (fun _ _ _ => .setf) ∧
  Marks 0x033 .sete (fun _ => .write) (fun _ => 64) true (fun _ => 0) (fun _ _ _ => .sete))

/-- Alignment and translation faults name their address, and nothing of the access takes effect (R184, R190, R200); an
invalidation at too low a level is the privilege fault (R207). -/
def Obligations.AccessFaultsNameAddress : Prop :=
  AccessFaults 0x010 .lda (fun x g s => accessBm s (ea g x) (2 ^ x.d.toNat) 1)
    (fun x g s e => s.accessFails .read (ea g x) (2 ^ x.d.toNat) (2 ^ x.d.toNat) x.ch.toNat e) ∧
  AccessFaults 0x011 .ldav (fun x g s => accessBm s (ea g x) (regBytes x.d.toNat) 2)
    (fun x g s e => s.accessFails .read (ea g x) (regBytes x.d.toNat) 1 x.ch.toNat e) ∧
  AccessFaults 0x012 .sta (fun x g s => accessBm s (ea g x) (2 ^ x.d.toNat) 1)
    (fun x g s e => s.accessFails .write (ea g x) (2 ^ x.d.toNat) (2 ^ x.d.toNat) x.ch.toNat e) ∧
  (∀ opc i, (opc, i) ∈ [(0x020, Instr.amoadd), (0x021, Instr.amoswap), (0x022, Instr.amocas), (0x023, Instr.amomin),
      (0x024, Instr.amomax), (0x025, Instr.amoand), (0x026, Instr.amoor), (0x027, Instr.amoxor), (0x031, Instr.stfe)] →
    AccessFaults opc i (fun _ _ _ => 1) (fun x g s e => s.accessFails .write g.b.w (wordSize x) (wordSize x) x.ch.toNat e)) ∧
  (∀ opc i, (opc, i) ∈ [(0x032, Instr.setf), (0x033, Instr.sete)] →
    AccessFaults opc i (fun _ _ _ => 1) (fun x g s e => s.accessFails .write g.b.w 64 64 x.ch.toNat e)) ∧
  (∀ opc i, (opc, i) ∈ [(0x031, Instr.stfe), (0x032, Instr.setf), (0x033, Instr.sete)] →
    AccessFaults opc i (fun _ _ _ => 1) (fun x g s e => ∃ r ps, let n := if opc = 0x031 then wordSize x else 64
      g.b.w.toNat % n = 0 ∧ s.resolve s.cur .write g.b.w n x.ch.toNat = .ok r ∧ r.tgt = .mem ps ∧ (∃ p ∈ ps, p.fe = false) ∧
      e = .fault 13 (some g.b.w))) ∧
  (∀ i, i ∈ [Instr.tlbinvPage, Instr.tlbinvRange, Instr.tlbinvTenant] →
    Stops .A 0x060 i (fun _ _ s => s.cur.pl < 1) (.fault 5 none)) ∧
  Stops .A 0x060 .tlbinvAll (fun _ _ s => s.cur.pl < 2) (.fault 5 none)

/-- Fences give a token of their kind, scope and the access count (R203, R204); `fwait` goes on where its token covers nothing
outstanding (R205). Sheaf windows are bound and unbound, and invalidations queued, by markers (R206, R207). Streams are bound
and unbound (R227, R229).

An invalidation completes (R186, R207, R208): from the cache of every plot in its scope the entries that it names are
gone, every other entry and plot stays, and no byte of memory changes. -/
def Obligations.OrderingForms : Prop :=
  ((∀ opc i kind, (opc, i, kind) ∈ [(0x040, Instr.fence, 0), (0x041, Instr.fenceRel, 1), (0x042, Instr.fenceAcq, 2)] →
    Acts .A opc i (fun x _ s s' => s.putS x.a 1 (BitVec.ofNat 64
      (2 ^ 63 + kind * 2 ^ 61 + x.d.toNat % 8 * 2 ^ 58 + s.cur.q.seq % 2 ^ 48)) = .ok s')) ∧
  Completes .A 0x043 .fwait plainCost (fun _ g s => g.b.w.getLsbD 63 = false ∨ g.b.w.toNat / 2 ^ 61 % 4 = 3 ∨
      s.cur.covered (g.b.w.toNat / 2 ^ 61 % 4) (g.b.w.toNat / 2 ^ 58 % 8) (min (g.b.w.toNat % 2 ^ 48) s.cur.q.seq))
    (fun _ _ s s' => s' = s) ∧
  (∀ opc i scatter, (opc, i, scatter) ∈ [(0x050, Instr.shbind, false), (0x051, Instr.shbindw, true)] →
    Acts .A opc i (fun x g s s' => g.b.w.toNat % 2 ^ x.d.toNat = 0 ∧ g.c.w.toNat % 4 = 0 ∧
      g.e.w.toNat ≤ 2 ^ 32 / 2 ^ x.d.toNat ∧
      (Tab.get? s.cur.q.windows x.a.toNat ≠ none ∨ s.descriptors s.cur.tiller < 16) ∧
      s' = (s.onCur (fun t => { t with q := { t.q with
        windows := Tab.set t.q.windows x.a.toNat ⟨scatter, g.b.w, g.c.w, x.d.toNat, g.e.w.toNat⟩ } })).pushMarker
          false 0 0 (.mem []) .mark)) ∧
  Acts .A 0x052 .shunb (fun x _ s s' => s' = (s.onCur (fun t => { t with q := { t.q with
    windows := Tab.erase t.q.windows x.a.toNat } })).pushMarker false 0 0 (.mem []) .mark) ∧
  (∀ i mode pl, (i, mode, pl) ∈ [(Instr.tlbinvPage, 0, 1), (Instr.tlbinvRange, 1, 1), (Instr.tlbinvTenant, 2, 1),
      (Instr.tlbinvAll, 3, 2)] →
    Acts .A 0x060 i (fun x g s s' => pl ≤ s.cur.pl ∧
      s' = s.pushMarker true 3 g.b.w (.mem []) (.tlbinv mode (x.d.toNat / 4) s.cur.tenant g.b.w g.e.w))) ∧
  Completes .A 0x058 .binds plainCost (fun x _ s => s.cur.streamIdle x.a.toNat = true) (fun x g s s' =>
    let e := g.e.w.toNat
    let vec := x.d.getLsbD 1
    let es := e / 2 ^ 48 % 2 ^ 6
    e < 2 ^ 54 ∧ (if vec then 1 ≤ es ∧ es ≤ 36 else es ≤ 3) ∧
      s' = s.onCur (fun t => t.stream x.a.toNat ⟨x.d.getLsbD 0, vec, g.b.w, (g.c.w.setWidth 32).toInt,
        ((g.c.w >>> 32).setWidth 32).toInt, e % 2 ^ 24, e / 2 ^ 24 % 2 ^ 24, es, x.ch.toNat, 0, 0, [], s.cur.q.seq, 0⟩)) ∧
  Completes .A 0x059 .unbs plainCost (fun x _ s => s.cur.streamIdle x.a.toNat = true) (fun x _ s s' =>
    s' = s.onCur (fun t => { t with q := { t.q with streams := Tab.erase t.q.streams x.a.toNat } }))) ∧
  (∀ (s : State) c t id seq sc va tgt mode scope tenant addr len sent rest, s.task? c = some t → t.moving →
    t.q.stores = .marker id seq sc va tgt (.tlbinv mode scope tenant addr len) sent :: rest →
    (∃ a l, t.q.loads = a :: l ∧ a.kind = .marker id) → t.q.buffer = [] →
    s.sampleAhead c seq = false →
    ∃ s' u, exec (.tlbinvComplete c) s = .next s' ∧ s'.task? c = some u ∧ u.q = t.q.popMarker id ∧ (∀ a, s'.at a = s.at a) ∧
      ∀ q, (s'.plot q).tc = if (scope = 1 ∧ q = t.plot) ∨ (scope = 2 ∧ q / 32 = t.plot / 32) ∨ (scope ≠ 1 ∧ scope ≠ 2 ∧ q < 128)
        then (s.plot q).tc.filter (fun e => !e.removed mode tenant addr.toNat len.toNat) else (s.plot q).tc)

/-- A load performs (R192, R195, R214): its bytes, with those of the task's own store buffer over memory, and over what the
fabric has answered for a piece that is not at home, reach its load-data entry or its register, it leaves the queue, and no
byte of memory changes.

Stores perform (R191, R196, R211): the pair at the head enters the store buffer, from which the task's loads read it;
written back, its bytes stand in memory, every other byte stays, and its place is free.

The stream unit (R227, R228): an element at home read ahead joins the buffer behind the others, and no byte of memory
changes; a landed element of an output stream enters the store buffer. -/
def Obligations.AccessesPerform : Prop :=
  (∀ (s : State) c t a rest ps, s.task? c = some t → t.moving → t.q.loads = a :: rest → a.tgt = .mem ps →
    s.sampleAhead c a.seq = false → s.piecesHeld c a.seq ps = false →
    (∀ p ∈ ps, ∀ l ∈ lineParts p, (s.pieceBytes t.q a.seq none l).isSome) → s.piecesFull ps = true →
    let bytes := ps.flatMap (fun p => (s.pieceBytes t.q a.seq none p).getD [])
    (∀ p ∈ ps, p.pa < 2 ^ 54 → (p.pa < 2 ^ 52 → s.home p.pa) → (∀ g ∈ t.q.gets, g.seq ≠ a.seq) →
      s.pieceBytes t.q a.seq none p = some (overlay t.q p.pa (s.readPiece [] p))) ∧
    (∀ id vec code, a.kind = .data id vec code → ∃ s' u, exec (.loadPerform c 0) s = .next s' ∧ s'.task? c = some u ∧
      (∀ b, s'.at b = s.at b) ∧ (∀ b ∈ u.q.loads, b ∈ rest) ∧ a ∉ u.q.loads ∧ u.regs = t.regs ∧
      ∀ e ∈ u.q.ldata, e.id = id → e.data = some (if vec then unpackReg code bytes else BitVec.ofNat 1024 (leNat bytes))) ∧
    (∀ id n code p, a.kind = .reg id n code → 0 < n → n < 64 → t.flow.producers.find? (fun p => p.id == id) = some p →
      p.reg = n → p.elem = none → ∃ s' u, exec (.loadPerform c 0) s = .next s' ∧ s'.task? c = some u ∧
        (∀ b, s'.at b = s.at b) ∧ a ∉ u.q.loads ∧ u.regs.getS n = BitVec.ofNat 64 (leNat bytes) ∧
        u.regs.fullReg n = true ∧ u.regs.sameBut t.regs n)) ∧
  ((∀ (s : State) c t seq va p size hint rest d ds v, s.task? c = some t → t.moving →
    t.q.stores = .sta seq va (.mem [p]) false size hint 0 :: rest → t.q.sdata = d :: ds → d.data = some v →
    s.piecesHeld c seq [p] = false → p.len = size → p.pa % 64 + size ≤ 64 → 0 < size → t.q.buffer.length < 16 →
    ∃ u, exec (.storePerform c) s = .next (s.setTask c u) ∧ u.q.stores = rest ∧ u.q.sdata = ds ∧ u.regs = t.regs ∧
      ∀ j, j < size → u.q.buffered (p.pa + j) = some (BitVec.ofNat 8 (v.toNat / 256 ^ j))) ∧
  (∀ (s : State) c t i p, s.Inv → s.task? c = some t → t.phase ≠ .aborted → s.nextPlace t.q = some (i, p) →
    s.pathlessStore t.q p = none → s.placeFar p = false →
    (p.bytes.map (·.1)).Nodup → ∃ s' u, exec (.storeBufferWriteback c) s = .next s' ∧ s'.task? c = some u ∧
      u.q.buffer = t.q.buffer.eraseIdx i ∧ (∀ e ∈ p.bytes, s'.at (p.line * 64 + e.1) = e.2) ∧
      ∀ a, (∀ e ∈ p.bytes, a ≠ p.line * 64 + e.1) → s'.at a = s.at a)) ∧
  ((∀ (s : State) c t q ext st es s1, s.task? c = some t → t.moving → Tab.get? t.q.streams q = some st → st.out = false →
    st.buf.length < 16 → st.moved < st.count1 * st.count2 → t.performedBelow st.after = true →
    s.streamReach c t .read st ext false = .ok (es, s1) → let ps := es.map (·.2)
    s.piecesHeld c st.after ps = false → (∀ p ∈ ps, s.heldPiece p = false) → s.piecesFull ps = true →
    s.lostPiece ext ps = none → ∃ s' u, exec (.streamReadAhead c q ext) s = .next s' ∧ s'.task? c = some u ∧
      (∀ a, s'.at a = s.at a) ∧ u.regs = t.regs ∧ Tab.get? u.q.streams q = some { st with
        moved := st.moved + 1
        buf := st.buf ++ [⟨s1.fresh, some (let bs := s.loadPiecesFrom ext t.q ps
          if st.vec then unpackReg st.es bs else BitVec.ofNat 1024 (leNat bs)), none⟩] }) ∧
  (∀ (s : State) c t q st e rest v va p s1, s.task? c = some t → t.moving → Tab.get? t.q.streams q = some st → st.out = true →
    st.vec = false → st.buf = e :: rest → e.data = some v → t.performedBelow st.after = true →
    (∀ first, s.streamReach c t .write st [] first = .ok ([(va, p)], s1)) → s.piecesHeld c st.after [p] = false → p.len = 2 ^ st.es →
    p.pa % 64 + p.len ≤ 64 → t.q.buffer.length < 16 → ∃ s' u, exec (.streamWriteBehind c q) s = .next s' ∧
      s'.task? c = some u ∧ (∀ a, s'.at a = s.at a) ∧
      Tab.get? u.q.streams q = some { st with moved := st.moved + 1, buf := rest, entered := 0 } ∧
      ∀ j, j < 2 ^ st.es → u.q.buffered (p.pa + j) = some (BitVec.ofNat 8 (v.toNat / 256 ^ j))))

/-- Atomics perform at the head of the queues (R201): in one action the old bits go to their destination, sign-extended with
VAR, and the new value stands in memory; every other byte stays. At an empty line of a sync page one waits, with no byte of
memory, full/empty bit, register or queue changed.

Sync-word operations perform at the head of the queues (R202): `ldfe` at a full line, which it leaves empty where it
consumes; `stfe` at an empty one, or with VAR at any; `setf` and `sete`, which change no data. No other line and no other
byte changes. At an empty line `ldfe` waits, and so does at a full one `stfe` without VAR, with no byte of memory, full/empty bit,
register or queue changed. -/
def Obligations.SyncAccessesPerform : Prop :=
  ((∀ (s : State) c t id seq scope va p opc size sgn x y dst, s.task? c = some t →
    AtMarker t id seq scope va p (.amo opc size sgn x y dst) → s.home p.pa → p.fe = true → s.full p.pa = false →
    ∃ s', exec (.atomicPerform c) s = .next s' ∧ s.heldBack c t s') ∧
  ∀ (s : State) c t id seq scope va p opc size sgn x y dst, s.Inv → s.task? c = some t →
    AtMarker t id seq scope va p (.amo opc size sgn x y dst) → s.home p.pa → s.holds c seq (p.pa / 64) = false →
    s.sampleAhead c seq = false → size = 4 ∨ size = 8 → 0x20 ≤ opc → opc ≤ 0x27 → (sgn = true → opc = 0x23 ∨ opc = 0x24) →
    (p.fe = true → s.full p.pa = true) → ∃ s' u new, exec (.atomicPerform c) s = .next s' ∧ s'.task? c = some u ∧
      AtomicValue opc size sgn (leNat (s.bytes p.pa size)) x.toNat y.toNat new ∧
      (∀ j, j < size → s'.at (p.pa + j) = BitVec.ofNat 8 (new / 256 ^ j)) ∧
      (∀ a, a < p.pa ∨ p.pa + size ≤ a → s'.at a = s.at a) ∧ s'.empties = s.empties ∧ u.q.stores = (t.q.popMarker id).stores ∧
      u.q.loads = (t.q.popMarker id).loads ∧
      (∀ n, dst = .reg n → 0 < n → n < 64 → u.regs.getS n = if sgn then BitVec.ofInt 64 ((leNat (s.bytes p.pa size) : Int).bmod (2 ^ (8 * size)))
        else BitVec.ofNat 64 (leNat (s.bytes p.pa size))) ∧
      ∀ n, n < 128 → dst ≠ .reg n → u.regs.value n = t.regs.value n) ∧
  (∀ (s : State) c t id seq scope va p op, s.Inv → s.task? c = some t → AtMarker t id seq scope va p op → s.home p.pa →
    ((∃ size consume dst, op = .ldfe size consume dst ∧ s.full p.pa = false) ∨
      (∃ size x, op = .stfe size false x ∧ s.full p.pa = true) →
      ∃ s', exec (.syncOpPerform c) s = .next s' ∧ s.heldBack c t s') ∧
    let runs (full : Bool) (bytes : List Byte) (q : Task → Prop) : Prop := ∃ s' u, exec (.syncOpPerform c) s = .next s' ∧
      s'.task? c = some u ∧ u.q.stores = t.q.stores.drop 1 ∧ q u ∧ s'.full p.pa = full ∧
      (∀ l, l ≠ p.pa / 64 → (l ∈ s'.empties ↔ l ∈ s.empties)) ∧
      ∀ a, s'.at a = if p.pa ≤ a ∧ a < p.pa + bytes.length then bytes.getD (a - p.pa) 0 else s.at a
    s.holds c seq (p.pa / 64) = false → s.sampleAhead c seq = false →
    (∀ e ∈ t.q.stores.drop 1, match e with | .marker i .. => i ≠ id | _ => True) →
    (∀ size consume n, op = .ldfe size consume (.reg n) → 0 < n → n < 64 → s.full p.pa = true →
      runs (!consume) [] (fun u => u.regs.getS n = BitVec.ofNat 64 (leNat (s.bytes p.pa size)) ∧
        ∀ m, m < 128 → m ≠ n → u.regs.value m = t.regs.value m)) ∧
    (∀ size force x, op = .stfe size force x → force = true ∨ s.full p.pa = false →
      runs true (toLe size x.toNat) (fun u => u.regs = t.regs)) ∧
    (op = .setf → runs true [] (fun u => u.regs = t.regs)) ∧
    (op = .sete → runs false [] (fun u => u.regs = t.regs)))

/-! ## Range forms and the Acre -/

/-- The memory-range forms (R140 to R145): checked, each holds the issue stage with nothing done yet but its FIXED part charged,
its first group due in the cycle behind its issue at the earliest; with no elements, and
after its last group, its result is under way with a latency of 4, PIX and the range state are clear and its bundle goes on;
each group in between, one in a cycle, adds to the partial result and changes no byte of memory, but for `vprunem`. When a group
is charged and an operand consumed is the model's reading (DEDUCED, log entry 17), and so is the place of the range state in
the save area (DESIGN CHOICE, log entry 10). -/
def Obligations.RangeForms : Prop :=
  (∀ opc i, (opc, i) ∈ [(0x0A0, Instr.vtopkm), (0x0A1, Instr.vprunem), (0x0A2, Instr.vcmpm), (0x0A3, Instr.vredm),
      (0x0A4, Instr.vgathm)] → ∀ x g s s1, Ready .V opc x g s s1 → s.cur.csr.pix = 0 → RangeOk opc x g →
    s1.cur.ordinary x.a.toNat true → s.stage.checked = true ∨ s.cur.invalidating = false →
    let count := g.c.w.toNat % 2 ^ 32
    let fixed := (s.costOf .V opc ⟨0, 0, 1, 1, 0⟩).fixed
    let s0 := s.onCur (fun t => { t with csr := { t.csr with pix := 0 } })
    let first := max (max s.stage.base s.stage.ranged) s.cycle
    let start := rangeStart opc x (wordOf opc x) g.e.w
    let r : RangeRun := ⟨wordOf opc x, g.b.w, count, g.e.w, g.c.v, g.c.tag.toNat, start, max first (s.stage.base + 1)⟩
    (0 < rangeGroups opc x count → exec (i x) s =
      .next (let s2 := s0.owe .suspend (fixed, 0)
             { s2 with stage := { s2.stage with halt := .suspended, range := some r } })) ∧
    (rangeGroups opc x count = 0 → exec (i x) s = .next (s0.rangeFinish opc x (wordOf opc x) start first))) ∧
  (∀ opc x word p now g (s s1 : State), s.task? s.stage.uid ≠ none → s.readArgs x (usedKinds .V opc x) = .ok (g, s1) →
    s1.cur.ordinary x.a.toNat true → ∃ s', s.rangeFinish opc x word p now = s' ∧
      (∀ a, (s.cur.flow.range.valid = true → ¬ s.rangeAt s.cur.no a) → s'.at a = s.at a) ∧ s'.stage.halt = .run ∧
      s'.stage.range = none ∧ s'.cur.csr.pix = 0 ∧ s'.cur.flow.range.valid = false ∧ s'.cur.regs = s.cur.regs ∧
      s'.cur.flow.inflight = s.cur.flow.inflight ++
        [⟨now + 4, regDest x.a.toNat, (rangeValue opc x p).1, (rangeValue opc x p).2⟩]) ∧
  (∀ (s : State) c ext tl g t r bs s1, s.held.find? (fun h => h.2.uid == c && h.2.halt == .suspended) = some (tl, g) →
    s.task? c = some t → g.range = some r → r.ready ≤ s.cycle → t.q.loads = [] → t.q.stores = [] →
    let x := unpack r.word
    let opc := (opcode r.word).toNat
    opc ≠ 0x0A1 → ({ s with stage := g } : State).rangeFetch c t ext x (rangeSize opc x) (rangeReads opc x r r.part.group) = .ok (bs, s1) →
    let part := rangeStep opc x r r.part.group (elemsOf (rangeSize opc x) bs)
    let p' : RangeState := { part with group := r.part.group + 1 }
    let r' : RangeRun := { r with part := p', ready := s.cycle + 1 }
    (r.part.group + 1 < rangeGroups opc x r.count → ∃ s' g', exec (.rangeGroupComplete c ext) s = .next s' ∧
      (∀ a, s'.at a = s.at a) ∧ Tab.get? s'.held tl = some g' ∧ g'.halt = .suspended ∧ g'.range = some r') ∧
    (rangeGroups opc x r.count ≤ r.part.group + 1 → ∃ s2 s3 : State, exec (.rangeGroupComplete c ext) s = .next s3 ∧ s3 =
      (s2.rangeFinish opc x r.word p' s.cycle).shelve tl ∧ s2.cycle = s.cycle ∧ s2.stage.uid = c ∧ s2.cur.regs = t.regs))

/-- Leases (R151, R152, R165): `alease` and `alease.try`; `arel` of a token lets the lease drain; `await` goes on once no
more commands are outstanding than it allows, and raises a recorded error (R164).

The queued forms of the Acre (R149, R154 to R163): each enters the command queue of the task's lease with its operands as
read; without a lease every one of them is the lease fault. -/
def Obligations.AcreForms : Prop :=
  (Leases .alease false ∧ Leases .aleaseTry true ∧
  Acts .M 0x002 .arel (fun _ g s s' =>
    let p := s.plot s.cur.plot
    s.acreError s.stage.uid = none ∧
      (((p.leaseOf s.stage.uid = none ∨ g.b.w.getLsbD 31 = false) ∧ s' = s) ∨
       ∃ e l, p.leaseOf s.stage.uid = some (e, l) ∧ g.b.w.getLsbD 31 = true ∧
        s' = (let s1 := s.setPlot s.cur.plot { p with leases := Tab.set p.leases e { l with releasing := true } }
              if l.cmds = [] ∧ l.pending = false then s1.freeLease s.cur.plot e else s1))) ∧
  Completes .M 0x035 .await plainCost
    (fun _ g s => s.acreError s.stage.uid ≠ none ∨ s.acreOutstanding s.stage.uid ≤ g.b.w.toNat)
    (fun _ _ s s' => s.acreError s.stage.uid = none ∧ s' = s) ∧
  Halts .M 0x035 .await plainCost unconditional (fun _ _ s e => ∃ r, s.acreError s.stage.uid = some r ∧
    e = .record 19 r.addr r.syl none)) ∧
  (QueuesCommand 0x010 .aidx plainCost (fun x g _ _ => g.b.w.toNat % 2 ^ 56 % 64 = 0 ∧ (x.d.toNat / 32 = 1 → g.e.w.toNat % 2 = 0))
    (fun _ _ s s1 => s1 = s) (fun _ => 0) (fun _ => 0) (fun _ g _ => (g.b.w, 0, g.e.w)) ∧
  QueuesCommand 0x011 .abind plainCost (fun _ g _ _ => g.b.w.toNat % 64 = 0 ∧ g.c.w.toNat % 2 ^ 32 % 64 = 0 ∧
      g.e.w.toNat % 32 = 0 ∧ g.e.w.toNat < 2 ^ 24)
    (fun _ g s s1 => s1 = s.onCur (fun t => { t with job := { t.job with issueKoff := g.e.w.toNat } }))
    (fun _ => 0) (fun _ => 0) (fun _ g _ => (g.b.w, g.c.w, g.e.w)) ∧
  QueuesCommand 0x012 .ascl plainCost (fun _ g _ _ => g.b.w.toNat % 4 = 0 ∧ g.c.w.toNat % 4 = 0 ∧ g.e.w.toNat % 4 = 0 ∧
      g.e.w.toNat / 2 ^ 16 % 4 = 0)
    (fun _ _ s s1 => s1 = s) (fun _ => 0) (fun _ => 0) (fun _ g _ => (g.b.w, g.c.w, g.e.w)) ∧
  Products 0x020 .amul false false ∧ Products 0x021 .amac false true ∧ Products 0x022 .amulm true false ∧
  Products 0x023 .amacm true true ∧
  QueuesCommand 0x034 .apred productCosts
    (fun x g t o => ProductOk false false x.a.toNat g.b.w 0 g.c.w t o)
    (fun x g s s1 => s1 = s.onCur (fun t => t.productIssued x.a.toNat g.b.w (x.d.getLsbD 1)))
    (fun x => x.a.toNat) (fun _ => 0) (fun _ g _ => (g.b.w, g.c.w, g.e.w)) ∧
  QueuesCommand 0x030 .azero tileCosts (fun x g t _ => x.a.toNat < t.job.tiles.length ∧ ShapeOk g.b.w false ∧
      (¬ ShapeWhole g.b.w → t.job.issueTags.getD x.a.toNat 0 = 31))
    (fun x _ s s1 => s1 = s.onCur (fun t => { t with job := { t.job with issueTags := t.job.issueTags.set x.a.toNat 31 } }))
    (fun x => x.a.toNat) (fun _ => 0) (fun _ g _ => (g.b.w, 0, 0)) ∧
  QueuesCommand 0x031 .acvt tileCosts (fun x _ t _ => x.a.toNat < t.job.tiles.length ∧ t.job.issueTags.getD x.a.toNat 0 = 31)
    (fun x _ s s1 => s1 = s.onCur (fun t => { t with job := { t.job with
      issueTags := t.job.issueTags.set x.a.toNat x.d.toNat } }))
    (fun x => x.a.toNat) (fun _ => 0) (fun _ g _ => (g.b.w, 0, 0)) ∧
  QueuesCommand 0x032 .amove tileCosts (fun x _ t _ => x.b.toNat < t.job.tiles.length ∧
      (t.job.issueTags.getD x.b.toNat 0 = 31 ∨
        (t.job.issueTags.getD x.b.toNat 0 ∈ [1, 2, 29] ∧ t.job.issueTags.getD x.b.toNat 0 = x.d.toNat)))
    (fun x _ s s1 => s.produce .amove x.a.toNat 0 0 (x.d.setWidth 6) = .ok s1)
    (fun x => x.b.toNat) (fun x => x.a.toNat) (fun x g t => (BitVec.ofNat 64 (t.job.issueTags.getD x.b.toNat 0), g.c.w, 0)) ∧
  QueuesCommand 0x033 .astore tileCosts (fun x g t _ => x.b.toNat < t.job.tiles.length ∧ ShapeOk g.c.w false ∧
      t.job.issueTags.getD x.b.toNat 0 = 31)
    (fun _ _ s s1 => s1 = s) (fun x => x.b.toNat) (fun _ => 0) (fun _ g _ => (g.c.w, 0, g.e.w)) ∧
  (∀ opc i cost, (opc, i, cost) ∈ [(0x010, Instr.aidx, plainCost), (0x011, Instr.abind, plainCost), (0x012, Instr.ascl, plainCost),
      (0x030, Instr.azero, tileCosts), (0x031, Instr.acvt, tileCosts), (0x032, Instr.amove, tileCosts),
      (0x033, Instr.astore, tileCosts), (0x020, Instr.amul, productCosts), (0x021, Instr.amac, productCosts),
      (0x022, Instr.amulm, productCosts), (0x023, Instr.amacm, productCosts), (0x034, Instr.apred, productCosts)] →
    Halts .M opc i cost (fun _ _ s => (s.plot s.cur.plot).leaseOf s.stage.uid = none ∧ (s.plot s.cur.plot).requests s.stage.uid = false)
      (fun _ _ s e => (s.plot s.cur.plot).leaseOf s.stage.uid = none ∧ e = .fault 17 none)))

/-- The Acre at work (R148, R152, R153, R158 to R163): the first command of the running lease begins to hold the array once its
accesses are ordered and the array is free, and executes once its cycles have passed: it leaves its queue, its tile is written, and
where its writes are at home their bytes stand in memory with every other byte as before; a quantum that is over ends; a
granted request gets its token; a lease that drains becomes free; the data of an `amove` fills its register. The start of
a command, and that it executes in one step, are the model's reading (DEDUCED, log entry 29). -/
def Obligations.AcreRuns : Prop :=
  (∀ (s : State) n ext p e l uid c rest t d s1, (s.plot n).begin = p → p.running = some e → Tab.get? p.leases e = some l →
    l.holder = .task uid → l.cmds = c :: rest → c.sent = none → s.task? uid = some t → t.phase ≠ .aborted → l.err = none →
    (p.began = none → c.touches = true → t.homeBelow c.seq = true) →
    let ops : OperandState := { l.ops.bind c with koff := (l.ops.bind c).koff + c.step }
    let s0 := s.setPlot n { p with leases := Tab.set p.leases e { l with cmds := rest, ops := ops } }
    s0.runCmd (t.engine c.pl) t.tiller ext l.ops c (p.tile (t.job.tiles.getD c.tile 0)) = .ok (d, s1) →
    (p.began = none → 0 < d.occ → max p.endedAt (c.since + 1) ≤ s.cycle →
      exec (.acreCommandExecute n ext) s = .next (s.setPlot n { p with began := some s.cycle })) ∧
    ((p.began = none ∧ d.occ = 0) ∨ (∃ b, p.began = some b ∧ b + d.occ + 64 ≤ s.cycle + 1) →
    (∀ w ∈ d.writes, ∀ q ∈ w.pieces, s.home q.pa) →
    ∃ s' l', exec (.acreCommandExecute n ext) s = .next s' ∧ Tab.get? (s'.plot n).leases e = some l' ∧ l'.cmds = rest ∧
      l'.ops = ops ∧ (s.Inv → ∀ a, s'.at a = written (d.writes.flatMap (fun w => laid w.pieces w.bytes)) a (s.at a)) ∧
      ∀ x, d.tile = some x → (s'.plot n).tile (t.job.tiles.getD c.tile 0) = x)) ∧
  (∀ (s : State) w k ext o c t, c.opc = 0x030 → ShapeOk c.x false → ∃ d, s.runCmd w k ext o c t = .ok (d, s) ∧ d.writes = [] ∧
    d.occ = 8 + c.x.toNat / 2 ^ 13 % 2 ^ 8 ∧ ∃ x, d.tile = some x ∧ x.tag = 31 ∧ ∀ i j, i < 128 → j < 256 → x.get i j =
      if c.x.toNat / 2 ^ 32 % 2 ^ 7 ≤ i ∧ i < c.x.toNat / 2 ^ 32 % 2 ^ 7 + c.x.toNat / 2 ^ 13 % 2 ^ 8 ∧
        c.x.toNat / 2 ^ 39 % 2 ^ 9 ≤ j ∧ j < c.x.toNat / 2 ^ 39 % 2 ^ 9 + c.x.toNat / 2 ^ 21 % 2 ^ 9 then 0 else t.get i j) ∧
  (∀ (s : State) n e l, (s.plot n).running = some e → Tab.get? (s.plot n).leases e = some l →
    64 ≤ (s.plot n).quantum.1 ∨ 16384 ≤ (s.plot n).quantum.2 → ∃ s', exec (.acreQuantumEnd n) s = .next s' ∧
      (∀ a, s'.at a = s.at a) ∧ (s'.plot n).leases = (s.plot n).leases ∧
      ((s'.plot n).running = none ∨ (s'.plot n).quantum = (0, 0))) ∧
  (∀ (s : State) n e l uid id t p, (s.plot n).waiting = [] → (s.plot n).leases.find? (fun e => e.2.pending) = some (e, l) →
    l.holder = .task uid → l.token = some id → s.task? uid = some t → t.flow.producers.find? (fun p => p.id == id) = some p →
    p.elem = none → 0 < p.reg → p.reg < 64 → ∃ s' u, exec (.aleaseGrant n) s = .next s' ∧ s'.task? uid = some u ∧
      u.regs.getS p.reg = 0x80000000 ∧ u.regs.fullReg p.reg = true ∧ u.regs.sameBut t.regs p.reg ∧
      Tab.get? (s'.plot n).leases e = some { l with pending := false, token := none }) ∧
  (∀ (s : State) n e l, Tab.get? (s.plot n).leases e = some l → l.releasing = true → l.cmds = [] → l.pending = false → (s.plot n).waiting = [] →
    ∃ s', exec (.leaseEntryFree n e) s = .next s' ∧ Tab.get? (s'.plot n).leases e = none ∧
      ∀ d, d ≠ e → Tab.get? (s'.plot n).leases d = Tab.get? (s.plot n).leases d) ∧
  (∀ (s : State) c t p v, s.task? c = some t → t.flow.producers.find? (fun p => p.kind == .amove && p.data.isSome) = some p →
    t.flow.producers.find? (fun q => q.id == p.id) = some p → p.data = some v → p.elem = none → 0 < p.reg → p.reg < 128 →
    ∃ s' u, exec (.amoveFill c) s = .next s' ∧ s'.task? c = some u ∧ (∀ a, s'.at a = s.at a) ∧
      u.regs.value p.reg = (if p.reg < 64 then vec (low v.1) else v.1) ∧ u.regs.fullReg p.reg = true ∧
      u.regs.sameBut t.regs p.reg)

/-! ## The Drill, collectives and the sampler -/

/-- The Drill forms (R231 to R238, R242, R264): a command queued with its operands, its map owned and one more outstanding;
`copy` of no bytes only takes the map; `cwait` goes on at a map that holds every selected chunk and has no error; `ctest`
tests it; a drain clears and releases maps with nothing outstanding. -/
def Obligations.DrillForms : Prop :=
  Completes .M 0x040 .copy (fun _ g _ => (Cost.plain, ceilDiv (g.e.w.toNat % 2 ^ 20) 64)) (fun _ _ s => s.drillRoom) (fun x g s s' =>
    let len := g.e.w.toNat % 2 ^ 20
    let c0 := g.e.w.toNat / 2 ^ 20 % 2 ^ 9
    let n := x.d.toNat
    s.ownable n ∧ len ≤ 262144 ∧ g.e.w.toNat < 2 ^ 29 ∧ c0 + ceilDiv len 512 ≤ 512 ∧ inContextRegion g.c.w len = false ∧
      inContextRegion g.b.w len = false ∧
      s' = if len = 0 then s.setTiller s.cur.tiller ((s.tiller s.cur.tiller).setMap n { s.curMap n with owner := some s.stage.uid })
        else s.pushDrill { s.drillCmd .copy n g.b.w g.c.w g.e.w x.ch.toNat (wordOf 0x040 x) with
          span := (List.range (ceilDiv len 512)).map (c0 + ·), summed := true }) ∧
  (∀ opc i kind, (opc, i, kind) ∈ [(0x041, Instr.drill, DrillKind.drill), (0x042, Instr.drw, DrillKind.drw)] →
    Completes .M opc i plainCost (fun _ _ s => s.drillRoom) (fun x g s s' => g.b.w.toNat % 64 = 0 ∧ s.ownable x.d.toNat ∧
      s' = s.pushDrill (s.drillCmd kind x.d.toNat g.b.w 0 g.e.w 0 (wordOf opc x)))) ∧
  Completes .C 0x04A .furrow plainCost (fun _ _ s => s.drillRoom) (fun x g s s' =>
    let j0 := g.c.w.toNat % 2 ^ 10
    let n := g.c.w.toNat / 2 ^ 10 % 2 ^ 11
    j0 + n ≤ 1024 ∧ s.ownable x.d.toNat ∧
      s' = s.pushDrill { s.drillCmd .furrow x.d.toNat g.b.w 0 g.c.w 0 (wordOf 0x04A x) with
        rows := (List.range n).map (fun i => Tab.getD (s.plot s.cur.plot).furrow (j0 + i) 0), summed := true }) ∧
  Completes .C 0x040 .cwait plainCost (fun x g s => s.mapHolds x.b.toNat g.e.w) (fun x g s s' =>
    SelectorOk g.e.w ∧ s.mapHolds x.b.toNat g.e.w ∧ (s.curMap x.b.toNat).err = none ∧ s' = s) ∧
  Acts .C 0x041 .ctest (fun x g s s' => ∃ b, SelectorOk g.e.w ∧
    (b = true ↔ ∀ i, i < 512 → Selected g.e.w i →
      (s.curMap x.b.toNat).owner = some s.stage.uid ∧ (s.curMap x.b.toNat).bits.getLsbD i = true) ∧ s' = s.putP x.a 1 b) ∧
  (∀ i all, (i, all) ∈ [(Instr.drain, false), (Instr.drainAll, true)] →
    Completes .M 0x043 i plainCost (fun x _ s => s.drainable all (x.d.toNat % 64)) (fun x _ s s' =>
      let n := x.d.toNat % 64
      (all = true ∨ s.ownable n) ∧ s.drainable all n ∧ s.drainClean all n ∧ s' = s.setTiller s.cur.tiller
        { s.tiller s.cur.tiller with maps := (s.tiller s.cur.tiller).maps.filter (fun e =>
          !((s.tiller s.cur.tiller).maps.any (fun f => f.1 == e.1 && f.2.owner == some s.stage.uid && (all || f.1 == n)))) }))

/-- The Drill at work (R186, R236, R237, R241, R245, R264): a translation marker at its turn goes, a command starts where
fewer than four run and its accesses are ordered, a program with the shape it has read; a copy reads all its source, then
writes it chunk by chunk; an element of a program without stages is copied from its source address to its destination; a row
of `furrow` is copied to its original place, each where its home is in the package; a chunk whose writes are all done is set in the
map, once no command of the map may still write it, and none whose writes behind the fabric have not been acknowledged. The order
of a copy's reads and writes, and that an element is one action, are the model's reading (DEDUCED, log entries 14 and 15). -/
def Obligations.DrillRuns : Prop :=
  (∀ (s : State) tl ext c, (s.tiller tl).drill.find? (fun c => !c.started) = some c →
    (c.kind = .marker → exec (.drillCommandStart tl ext) s = .next (s.setTiller tl { s.tiller tl with
      drill := (s.tiller tl).drill.filter (fun d => d.id != c.id) })) ∧
    (((s.tiller tl).drill.filter (·.started)).length < 4 → s.drillReady c = true →
      (c.kind = .copy → exec (.drillCommandStart tl ext) s =
        .next (s.setTiller tl ((s.tiller tl).setCmd { c with started := true }))) ∧
      (∀ bs c1 s1 span, c.kind = .drill → s.drillRead tl ext c c.x 160 = .ok (bs, c1, s1) → (programOf bs).valid = true →
        (programOf bs).gate = false → c.next < (programOf bs).total → (programOf bs).span [] = some span →
        ∃ s' c', exec (.drillCommandStart tl ext) s = .next s' ∧ c' ∈ (s'.tiller tl).drill ∧ c'.id = c.id ∧
          c'.started = true ∧ c'.prog = bs ∧ c'.span = span ∧ c'.next = c.next))) ∧
  (∀ (s : State) tl n ext c, (s.tiller tl).drill[n]? = some c → c.started = true → c.kind = .copy → c.next < c.total →
    s.drillEnds c = none →
    (∀ bs c1 s1, c.next = 0 → s.drillRead tl ext c c.y (c.z.toNat % 2 ^ 20) = .ok (bs, c1, s1) →
      ∃ s' c', exec (.drillElementTransfer tl n ext) s = .next s' ∧ (∀ a, s'.at a = s.at a) ∧ c' ∈ (s'.tiller tl).drill ∧
        c'.id = c.id ∧ c'.buf = bs ∧ c'.next = 1) ∧
    (∀ k p v c1 s1, s.Inv → c.next = k + 1 → c.summed = true →
      let bs := (c.buf.drop (512 * k)).take 512
      State.drillTargets tl ext [(c.x + BitVec.ofNat 64 (512 * k), bs)] c s = .ok ([⟨v, [p], bs⟩], c1, s1) →
      s.home p.pa → p.len = bs.length →
      ∃ s', exec (.drillElementTransfer tl n ext) s = .next s' ∧ s.wrote p.pa bs s')) ∧
  (∀ (s : State) tl n ext c d bs p v c1 c2 s1 s2, s.Inv → (s.tiller tl).drill[n]? = some c → c.started = true → c.kind = .drill →
    s.drillEnds c = none → (∀ e ∈ c.flight, e.1 + 16 ≤ c.next → s.unacked e.2 = false) →
    let q := c.program
    c.next < q.total → q.micro = 0 → q.dstOf c.mask c.next = some d →
    s.drillRead tl ext c (q.srcOf c.z c.next) q.ssize = .ok (bs, c1, s1) →
    State.drillTargets tl ext [(d, bs)] c1 s1 = .ok ([⟨v, [p], bs⟩], c2, s2) → s.home p.pa → p.len = bs.length →
    ∃ s', exec (.drillElementTransfer tl n ext) s = .next s' ∧ s.wrote p.pa bs s') ∧
  (∀ (s : State) tl n ext c bs p v c1 c2 s1 s2, s.Inv → (s.tiller tl).drill[n]? = some c → c.started = true → c.kind = .furrow →
    c.summed = true → c.next < c.rows.length → s.drillEnds c = none →
    let d := c.prog
    let row := c.rows.getD c.next 0
    s.drillRead tl ext c (wordAt d 8 + BitVec.ofNat 64 ((c.z.toNat % 2 ^ 10 + c.next) * ((wordAt d 16).toNat / 2 ^ 32)))
      ((wordAt d 24).toNat % 2 ^ 16) = .ok (bs, c1, s1) →
    State.drillTargets tl ext [(wordAt d 0 + BitVec.ofNat 64 (row * ((wordAt d 16).toNat % 2 ^ 32)), bs)] c1 s1 =
      .ok ([⟨v, [p], bs⟩], c2, s2) → s.home p.pa → p.len = bs.length →
    ∃ s', exec (.furrowExecute tl n ext) s = .next s' ∧ s.wrote p.pa bs s') ∧
  (∀ (s : State) tl n ch c, (s.tiller tl).drill[n]? = some c → c.started = true → c.failed = none → ch ∈ c.span →
    s.chunkDone c ch = true → ch < 512 → c.map < 64 → (∀ d ∈ (s.tiller tl).drill, d.id ≠ c.id → d.map = c.map →
      ch ∉ d.span ∧ (d.started = true ∨ d.kind = .copy ∨ d.kind = .marker)) →
    ∃ s', exec (.chunkComplete tl n ch) s = .next s' ∧ (∀ a, s'.at a = s.at a) ∧
      ((s'.tiller tl).map c.map).bits.getLsbD ch = true) ∧
  (∀ (s : State) tl n ch c, (s.tiller tl).drill[n]? = some c → (∃ e ∈ c.flight, ch ∈ c.chunks e.1 ∧ s.unacked e.2 = true) →
    exec (.chunkComplete tl n ch) s = .next s)

/-- The forms of the collective engine, the sampler and the Gleaner's queue (R246, R248, R250, R252, R274): with room in the
queue and aligned addresses, the request is queued with its operands; a misaligned one names its address, and a token count past
4,096 is the fault 25. -/
def Obligations.ServiceForms : Prop :=
  Collects 0x050 .coll .coll ∧ Collects 0x051 .collTopk .topk ∧ Collects 0x052 .a2a .a2a ∧
  (∀ opc i, (opc, i) ∈ [(0x050, Instr.coll), (0x051, Instr.collTopk), (0x052, Instr.a2a)] →
    Halts .M opc i plainCost (fun _ _ s => (s.die s.cur.die).colls.length < 64) (fun _ g _ e =>
      (g.b.w.toNat % 64 ≠ 0 ∧ e = .fault 6 (some g.b.w)) ∨
      (g.b.w.toNat % 64 = 0 ∧ g.c.w.toNat % 8 ≠ 0 ∧ e = .fault 6 (some g.c.w)))) ∧
  Halts .M 0x053 .sample (fun _ _ _ => (Cost.plain, 1)) (fun _ _ s => (s.die s.cur.die).samples.length < 64) (fun _ g _ e =>
    (g.b.w.toNat % 32 ≠ 0 ∧ e = .fault 6 (some g.b.w)) ∨
    (g.b.w.toNat % 32 = 0 ∧ g.c.w.toNat % 8 ≠ 0 ∧ e = .fault 6 (some g.c.w))) ∧
  Halts .M 0x054 .glean plainCost (fun _ _ s => (s.die s.cur.die).fills.length < 256) (fun _ g _ e =>
    (g.b.w.toNat % 64 ≠ 0 ∧ e = .fault 6 (some g.b.w)) ∨
    (g.b.w.toNat % 64 = 0 ∧ 4096 < g.c.w.toNat ∧ e = .fault 25 none)) ∧
  Completes .M 0x053 .sample (fun _ _ _ => (Cost.plain, 1)) (fun _ _ s => (s.die s.cur.die).samples.length < 64) (fun x g s s' =>
    let t := s.cur
    ∃ s1, g.b.w.toNat % 32 = 0 ∧ g.c.w.toNat % 8 = 0 ∧
      ((x.a = 0 ∧ s1 = s) ∨ (x.a ≠ 0 ∧ s.produce .sample x.a.toNat 0 0 0 = .ok s1)) ∧
      s' = (let d := s1.die t.die
            let e : SampleEntry := ⟨s1.fresh, s.stage.uid, t.tenant, t.pl, t.plot, g.b.w, g.c.w, g.e.w, x.a.toNat, s.stage.seq, t.q.seq,
              if x.a = 0 then none else some s.fresh, none⟩
            ((s1.setDie t.die { d with samples := d.samples ++ [e] }).onCur (fun t => t.begin s1.fresh)).mint)) ∧
  Completes .M 0x054 .glean plainCost (fun _ _ s => (s.die s.cur.die).fills.length < 256) (fun _ g s s' =>
    let t := s.cur
    g.b.w.toNat % 64 = 0 ∧ g.c.w.toNat ≤ 4096 ∧
      s' = (let d := s.die t.die
            let e : FillEntry := .glean s.fresh s.stage.uid t.tenant t.pl g.b.w g.c.w.toNat t.plot
            ((s.setDie t.die { d with fills := d.fills ++ [e] }).onCur (fun t => t.begin s.fresh)).mint))

/-- Collectives and samples served (R219, R246, R247, R251, R252): an instance whose participants here all stand first in their
queues, and whose others have queued theirs, starts every one of them once their accesses to what any of them names are quiet;
when it completes, each leaves its queue once its writes are at home, and one that ended in error has the error bit alone in its
done word; a sample's register takes the bits of its token word, and with a temperature of zero the draw is the first candidate. An
access that a group holds back keeps an instance or a sample where it is (R346). That an instance completes in one step, and which
sample is served, are the model's reading (DEDUCED, log entries 27 and 28). -/
def Obligations.ServicesRun : Prop :=
  (∀ (s : State) group inst far ext queued es s1 all mine m ms, (∀ d e, d < 4 → e ∈ (s.die d).colls → e.plot / 32 = d) →
    queued = ((List.range 4).flatMap (fun d => (s.die d).colls)).filter (fun e => !e.started && e.inst.toNat == inst) →
    s.readColls ext queued = .ok (es, s1) → all = es.filter (fun e => !e.words.isEmpty && e.part.group == group) →
    (es.filter s.isHead).find? (fun e => e.words.isEmpty || (e.part.group == group && !s.groupOk (firstTable all) e)) = none →
    mine = all.filter s1.isHead → mine = m :: ms →
    (∀ e ∈ all, s1.isHead e = false → s1.groupOk (firstTable all) e = true →
      ∀ f ∈ mine, f.die = e.die → f.part.rank ≠ e.part.rank) →
    (∀ p, p < m.part.npart →
      let q := groupMember (firstTable all) m.die group p
      (s.fab.pkg = some q.1 ∧ ∃ e ∈ mine, e.part.rank = p ∧ e.die = q.2) ∨ (s.fab.pkg ≠ some q.1 ∧ ∃ f ∈ far, f.rank = p)) →
    (∀ e ∈ mine, s1.namedQuiet (mine.flatMap s1.namedPieces) e = true) →
    ∃ s', exec (.collectiveInstanceStart group inst far ext) s = .next s' ∧
      ∀ e ∈ mine, ∃ e' ∈ (s'.die e.die).colls, e'.id = e.id ∧ e'.started = true ∧ e'.err = false) ∧
  (∀ (s : State) group inst far ext es, es = ((List.range 4).flatMap (fun d => (s.die d).colls)).filter
      (fun e => e.started && e.inst.toNat == inst && (e.words.isEmpty || e.part.group == group)) →
    let word (err : Bool) (l : List CollEntry) : List (CollEntry × Word) := l.map (fun e => (e, doneWord err 0 0))
    let completes (s' : State) (l : List CollEntry) : Prop := exec (.collectiveInstanceComplete group inst far ext) s = .next s' ∧
      ∀ e ∈ l, ∀ x ∈ (s'.die e.die).colls, x.id ≠ e.id
    (∀ s' bad, es.filter (·.err) = bad → bad ≠ [] → s.endColls ext (word true bad) = .ok s' → completes s' bad) ∧
    ((∀ e ∈ es, e.err = false ∧ e.sent = none) →
      (∀ s' r, s.instanceResult ext es far = .error r → r.code ≠ heldCode →
        (s.logLost r.who ext r.ctx r.code r.va).endColls ext (word true es) = .ok s' → completes s' es) ∧
      (∀ r, s.instanceResult ext es far = .error r → r.code = heldCode →
        ∃ s', exec (.collectiveInstanceComplete group inst far ext) s = .next s' ∧ s.waitsOn s') ∧
      (∀ s' rs s1, s.instanceResult ext es far = .ok (rs, s1) → let s2 := s1.writeResults rs
        s2.unacked (s1.fresh, s2.fresh) = false →
        s2.endColls ext (rs.map (fun r => (r.1.entry, doneWord false r.1.recv r.1.defer))) = .ok s' → completes s' es)) ∧
      ∀ e p s2, es = [e] → e.err = true → s.Inv →
        (((s.setDie e.die { s.die e.die with colls := (s.die e.die).colls.filter (fun x => x.id != e.id) }).onTask e.uid
          (fun t => t.done e.id)).engTarget e.who ext true e.doneVa 8) = .ok ([p], s2) → p.len = 8 → s.home p.pa →
        ∃ s', exec (.collectiveInstanceComplete group inst far ext) s = .next s' ∧ s.wrote p.pa (toLe 8 (2 ^ 63)) s') ∧
  (∀ (s : State) die ext e, (∀ x ∈ (s.die die).samples, x.sent = none) →
    ((s.die die).samples.take 4).find? s.sampleReady = some e →
    (∀ x, s.serveSample die ext e = .error x → ∃ s', exec (.sampleServe die ext) s = .next s' ∧ s.waitsOn s') ∧
    ∀ s', s.serveSample die ext e = .ok s' →
      (∀ r ps s2, s.draw ext e = .ok r → r.2.engTarget e.who ext true e.readyVa 8 = .ok (ps, s2) → ∀ p ∈ ps, s.home p.pa) →
      exec (.sampleServe die ext) s = .next s' ∧ (∀ x ∈ (s'.die die).samples, x.id ≠ e.id) ∧
      ∀ id t p r, e.prod = some id → s.task? e.uid = some t → t.phase ≠ .yielded →
        t.flow.producers.find? (fun p => p.id == id) = some p → p.elem = none → 0 < p.reg → p.reg < 64 →
        s.draw ext e = .ok r → ∃ u, s'.task? e.uid = some u ∧ u.regs.fullReg p.reg = true ∧ u.regs.sameBut t.regs p.reg ∧
          u.regs.getS p.reg = tokenWord r.1) ∧
  (∀ u v t cs, (f32 v).isNan = false → sampleDraw u 0 ((v, t) :: cs) = (0, t))

/-! ## Launches, budgets, row control -/

/-- The launch instructions (R320 to R325): `launch` takes the lowest free slot for its record with what it may give of its
budgets; `grow` raises the count of a grid that it may change, and is a launch fault where the grid is not bound or faults in the
same cycle (R326); `waitc` goes on at a counter that is met; `sigc` queues its
word with the engine work that goes first; `swap` asks for a flip and is privileged. Corners of launch and sigc, and the
counter of another package, are the model's (DEDUCED, log entry 32; DESIGN CHOICE, log entry 21). -/
def Obligations.LaunchForms : Prop :=
  Completes .C 0x030 .launch (fun _ _ _ => (Cost.plain, 2)) (fun _ _ s => s.cur.invalidating = false ∧ ∃ n, s.lowestFree n)
    (fun _ g s s' => ∃ c n, g.b.w.toNat % 64 = 0 ∧ s.checkAccess s.cur.who .read g.b.w.toNat 128 = .ok c ∧ s.lowestFree n ∧
      s' = (let bi := min g.c.w.toNat (s.cur.csr.bi.toNat % 2 ^ 48)
            let bm := min g.e.w.toNat (s.cur.csr.bm.toNat % 2 ^ 48)
            let s1 := s.cacheWalks s.cur.who c
            ((s1.setSlot n { s.cur.launchSlot s.stage.uid s.stage.seq s1.newGrid g.b.w bi bm with
                named := s1.launchLine s.cur s.cur.who g.b.w.toNat s.stage.seq }).onCur
              (fun t => { t with csr := (t.csr.charge bi 0).charge 0 bm })).mint)) ∧
  (∀ (t : Task) uid seq grid (rec_ : Word) bi bm, bi < 2 ^ 48 → bm < 2 ^ 48 → grid < 2 ^ 32 → rec_.toNat < 2 ^ 56 →
    let x := t.launchSlot uid seq grid rec_ bi bm
    x.st = 1 ∧ x.grid = grid ∧ x.tenant = t.tenant ∧ x.get 7 0 48 = bi ∧ x.get 8 0 48 = bm ∧ x.get 11 0 56 = rec_.toNat ∧
      x.launcher = some uid ∧ x.launcherSeq = seq ∧ x.launcherPl = t.pl ∧ x.holding = true) ∧
  (∀ s : State, s.newGrid ≠ 0) ∧
  Acts .C 0x031 .grow (fun _ g s s' => ∃ k y, s.slotNamed (g.b.w.toNat % 2 ^ 32) = some (k, y) ∧
    (s.cur.pl = 0 → g.b.w.toNat % 2 ^ 32 = s.cur.csr.gridid.toNat % 2 ^ 32) ∧ s.cur.governs y ∧
    s.faultsNow k = false ∧ y.g + g.e.w.toNat < 2 ^ 40 ∧ s' = s.setSlot k (y.grown g.e.w.toNat s.stage.uid s.stage.seq)) ∧
  (∀ (y : Slot) n uid seq, 0 < n → y.g + n < 2 ^ 40 → y.v = true → (y.grown n uid seq).g = y.g + n ∧ (y.grown n uid seq).st = 3) ∧
  Stops .C 0x031 .grow (fun _ g s => s.cur.pl = 0 ∧ g.b.w.toNat % 2 ^ 32 ≠ s.cur.csr.gridid.toNat % 2 ^ 32) (.fault 5 none) ∧
  Stops .C 0x031 .grow (fun _ g s => (s.cur.pl = 0 → g.b.w.toNat % 2 ^ 32 = s.cur.csr.gridid.toNat % 2 ^ 32) ∧
    ∀ k y, s.slotNamed (g.b.w.toNat % 2 ^ 32) = some (k, y) → (s.cur.pl = 1 → y.tenant = s.cur.tenant) ∧
      ((y.st ≠ 3 ∧ y.st ≠ 4) ∨ s.faultsNow k = true)) (.fault 27 none) ∧
  Completes .C 0x032 .waitc plainCost (fun _ g s => s.cur.invalidating = false ∧ ∃ r p, s.syncAt .read g.b.w r p ∧
      s.holds s.stage.uid s.cur.q.seq (p.pa / 64) = false ∧ s.counted p.pa g.e.w)
    (fun _ g s s' => ∃ r p, s.syncAt .read g.b.w r p ∧ s' = s.resolved s.stage.uid r) ∧
  Completes .C 0x033 .sigc (fun _ _ _ => (Cost.plain, 1)) (fun _ g s => s.cur.invalidating = false ∧
      ∃ r p, s.syncAt .write g.b.w r p ∧ s.holds s.stage.uid s.cur.q.seq (p.pa / 64) = false ∧ s.cur.q.sigcs.length < 4)
    (fun _ g s s' => ∃ r p, s.syncAt .write g.b.w r p ∧ s' = (s.onCur (fun t => { t with q := { t.q with
      sigcs := t.q.sigcs ++ [⟨g.b.w, p.pa, g.e.w, s.stage.seq, s.outstanding s.stage.uid, none⟩] } })).resolved s.stage.uid r) ∧
  Acts .C 0x034 .swap (fun x _ s s' => 1 ≤ s.cur.pl ∧ s' = s.requestFlip x.d.toNat) ∧
  Stops .C 0x034 .swap (fun _ _ s => s.cur.pl = 0) (.fault 5 none)

/-- The budget instructions and the counters (R297 to R301): `bget` reads the budgets, the charges of its bundle made, that of a
stream element which it sends among them, and the pools;
`bgive` gives at most what its own budget holds above a floor, to the pool or to the parent; `topup` adds to the own budget
at PL 1 or 2, or within the capability, and at PL 1 or 2 to the pools of a grid; `rdcnt` reads a counter as it stood when its
bundle issued, from PL 1 on those beyond the task's own. That at PL 2 the grid's exhausted Yielded tasks draw from the pool is the
model's (DESIGN CHOICE, log entry 52). -/
def Obligations.BudgetForms : Prop :=
  Acts .C 0x038 .bget (fun x _ s s' => ∃ s1, s.putS x.a 2 0 = .ok s1 ∧
    s.putS x.a 2 (if x.d = 0 then s1.cur.csr.bi else if x.d = 1 then s1.cur.csr.bm
      else if x.d = 2 then BitVec.ofNat 64 ((s1.slot s1.cur.job.slot).get 7 0 48)
      else BitVec.ofNat 64 ((s1.slot s1.cur.job.slot).get 8 0 48)) = .ok s') ∧
  Acts .C 0x039 .bgive (fun x g s s' =>
    let bm := x.d.getLsbD 0
    let n := min g.e.w.toNat ((if bm then s.cur.csr.bm else s.cur.csr.bi).toNat % 2 ^ 48 - g.b.w.toNat)
    let s1 := s.onCur (fun t => { t with csr := if bm then t.csr.charge 0 n else t.csr.charge n 0 })
    s' = if x.d.getLsbD 1 then s1.returnUnits s.cur.job.slot (if bm then 0 else n) (if bm then n else 0)
      else s1.addPool s.cur.job.slot (if bm then 0 else n) (if bm then n else 0)) ∧
  Acts .C 0x03A .topup (fun x g s s' =>
    let bm := x.d.getLsbD 0
    let n := g.e.w.toNat
    let limit := s.cur.csr.cap.toNat % 2 ^ 48
    (x.d.getLsbD 1 = false ∧ s.cur.pl ≠ 0 ∧ s' = s.onCur (fun t => t.topUp bm n)) ∨
    (x.d.getLsbD 1 = false ∧ s.cur.pl = 0 ∧ s.cur.csr.cap.getLsbD 63 = true ∧ s.cur.csr.cap.toNat / 2 ^ 48 % 2 ^ 8 = 1 ∧
      n ≤ limit ∧ s' = s.onCur (fun t =>
        ({ t with csr := { t.csr with cap := putBits t.csr.cap 0 48 (limit - n) } } : Task).topUp bm n)) ∨
    (x.d.getLsbD 1 = true ∧ s.cur.pl ≠ 0 ∧ ∃ k y, s.slotNamed (g.b.w.toNat % 2 ^ 32) = some (k, y) ∧ s.cur.governs y ∧
      s' = (let s1 := s.addPool k (if bm then 0 else n) (if bm then n else 0)
            if s.cur.pl = 2 then s1.drawDry k bm else s1))) ∧
  Stops .C 0x03A .topup (fun x g s => s.cur.pl = 0 ∧ (x.d.getLsbD 1 = true ∨ s.cur.csr.cap.getLsbD 63 = false ∨
    s.cur.csr.cap.toNat % 2 ^ 48 < g.e.w.toNat)) (.fault 5 none) ∧
  (∀ (t : Task) bm n, (t.topUp bm n).csr.tsw = t.csr.tsw ∧ (t.topUp bm n).regs = t.regs ∧
    (if bm then (t.topUp bm n).csr.bm else (t.topUp bm n).csr.bi).toNat =
      min (2 ^ 48 - 1) ((if bm then t.csr.bm else t.csr.bi).toNat % 2 ^ 48 + n)) ∧
  Acts .C 0x050 .rdcnt (fun x g s s' => (2 ≤ x.d.toNat → 1 ≤ s.cur.pl) ∧ s.putS x.a 2
    (if x.d = 0 then BitVec.ofNat 64 s.stage.cycle
     else if x.d = 1 then s.stage.taskCounters.getD g.e.w.toNat 0
     else if x.d = 2 then s.stage.plotCounters.getD g.e.w.toNat 0
     else if x.d = 3 then s.stage.dieCounters.getD g.e.w.toNat 0
     else s.stage.hotCount g.e.w) = .ok s') ∧
  (∀ (s : State) uid t, let g := (s.openStage uid t).stage
    g.cycle = s.cycle ∧ g.taskCounters = t.job.counters ∧ g.plotCounters = (s.plot t.plot).counters ∧
      g.dieCounters = (s.die t.die).counters ∧ g.hot = (s.die t.die).hot) ∧
  Stops .C 0x050 .rdcnt (fun x _ s => 2 ≤ x.d.toNat ∧ s.cur.pl = 0) (.fault 5 none)

/-- Row control (R260 to R263, R266, R282): the forms of `rcupd`, what an update makes of a row, `harrow`, which writes the
selected rows in order into the Furrow table and their number into A and LIVE, `xnote` and `route`. The order of route's
checks is the model's reading (DEDUCED, log entry 47). -/
def Obligations.RowForms : Prop :=
  RowUpdates .rcupdF32 .f32 ∧ RowUpdates .rcupdBf16 .bf16 ∧ RowUpdates .rcupdLd .ld ∧ RowUpdates .rcupdSt .st ∧
  (∀ thr b sc (w : BitVec 32), b < 64 → bf16.cvt false sc < 2 ^ 16 →
    let u := rcUpdate thr b sc w
    let st (w : BitVec 32) : Nat := w.toNat % 4
    let block (w : BitVec 32) : Nat := w.toNat / 4 % 64
    let recur (w : BitVec 32) : Nat := w.toNat / 2 ^ 8 % 16
    let score (w : BitVec 32) : Nat := w.toNat / 2 ^ 16
    let exits : Prop := (bf16.value (thr.toNat / 2 ^ 48)).le sc = true
    let skips : Prop := (bf16.value (thr.toNat / 2 ^ 32 % 2 ^ 16)).le sc = true
    let rloop := thr.toNat / 16 % 16
    (st w = 2 → u = w) ∧
    (st w = 1 → st u = 0 ∧ block u = min (b + 1) 63 ∧ score u = score w) ∧
    (st w = 0 ∨ st w = 3 → score u = bf16.cvt false sc ∧
      (exits → st u = 2 ∧ block u = b ∧ recur u = 0) ∧
      (¬ exits → st w = 3 → 0 < recur w → st u = 3 ∧ block u = b ∧ recur u = recur w - 1) ∧
      (¬ exits → st w = 0 → 0 < rloop → st u = 3 ∧ block u = b ∧ recur u = rloop - 1) ∧
      (¬ exits → (st w = 3 ∧ recur w = 0) ∨ (st w = 0 ∧ rloop = 0) → recur u = 0 ∧ block u = min (b + 1) 63 ∧
        (skips → st u = 1) ∧ (¬ skips → st u = 0)))) ∧
  Acts .C 0x049 .harrow (fun x g s s' =>
    let p := s.plot s.cur.plot
    ∃ (sel : List Nat) (s1 : State) (f : Tab Nat), (rows g.b.w).1 + (rows g.b.w).2 ≤ 1024 ∧ sel.Pairwise (· < ·) ∧
      (∀ r, r ∈ sel ↔ (rows g.b.w).1 ≤ r ∧ r < (rows g.b.w).1 + (rows g.b.w).2 ∧
        Selects263 x.d.toNat (g.c.w.toNat % 64) (Tab.getD p.rcw r 0)) ∧
      s.putS x.a 1 (BitVec.ofNat 64 sel.length) = .ok s1 ∧ f = sel.zipIdx.foldl (fun f e => Tab.set f e.2 e.1) p.furrow ∧
      s' = (((s1.setPlot s.cur.plot { s1.plot s.cur.plot with furrow := f }).onCur (fun t => { t with
        csr := { t.csr with live := BitVec.ofNat 64 sel.length } })).keepStage (4 + ceilDiv (rows g.b.w).2 128))) ∧
  Stops .C 0x049 .harrow (fun _ g _ => 1024 < (rows g.b.w).1 + (rows g.b.w).2) (.fault 24 none) ∧
  Completes .C 0x04B .xnote plainCost (fun _ _ s => (s.die s.cur.die).notices.length < 32) (fun _ g s s' =>
    g.c.w.toNat < 2 ^ 33 ∧ g.c.w.toNat / 2 ^ 17 % 64 = 0 ∧
      s' = (let d := s.die s.cur.die
            s.setDie s.cur.die { d with notices := d.notices ++ [⟨s.stage.uid, s.cur.no, s.cur.tenant, g.b.w, g.c.w⟩] })) ∧
  Completes .C 0x04C .route (fun _ g _ => (Cost.plain, ceilDiv (4 * (g.c.w.toNat % 2 ^ 17)) 64))
    (fun _ _ s => s.cur.invalidating = false) (fun x g s s' =>
      let n := g.c.w.toNat % 2 ^ 17
      let i := x.d.toNat % 64
      ∃ rd wr s1, n ≤ 65536 ∧ g.b.w.toNat % 2 = 0 ∧ g.e.w.toNat % 2 = 0 ∧ s.holdCheck .read g.b.w (2 * n) = .ok rd ∧
        s.holdCheck .write g.e.w (2 * n) = .ok wr ∧ (s.directory i).1.getLsbD 63 = true ∧
        (n = 0 ∨ s.holdWaits rd.1 wr.1 = false) ∧
        (let a := s.routeAct n i (g.c.w.toNat / 2 ^ 32 % 2 ^ 16) rd wr
         a.1.putS x.a 1 (BitVec.ofNat 64 ((s.directory i).2.toNat / 2 ^ 32 * 2 ^ 32 + a.2)) = .ok s1) ∧
        s' = s1.keepStage (4 + ceilDiv n 32))

/-- What the system events do (R266, R302, R313, R314, R317, R323, R325): a hot-expert window starts empty; an accepted exit
notice sets its rows to exit, one action after the other (R285), before its die takes the next one; a notice that cannot be delivered is a late-access record of its sender; a `sigc` writes its
word and fills its line; a launch record that passes binds its slot with a zero counter and an empty line; a group of one
task is placed with its arguments, once a cycle at a plot and behind every lower plot that picks the same record (R316, R326); a flip exchanges the planes. The layout of a notice and the causes of a launch report
are the model's (DESIGN CHOICE, log entries 22 and 23). -/
def Obligations.SystemEvents : Prop :=
  (∀ (s : State) d, d < 4 → (s.reg (0x180000 + 0x1000 * d)).toNat % 2 ^ 33 ≤ s.cycle - (s.die d).windowStart →
    exec (.hotExpertWindowStart d) s = .next (s.setDie d { s.die d with hot := [], windowStart := s.cycle })) ∧
  (∀ (s : State) g bs, let tgt := wordAt bs 8
    let n := tgt.toNat / 2 ^ 10 % 2 ^ 7
    let base := tgt.toNat / 2 ^ 17 % 2 ^ 10
    let p := (s.plot n).active
    p.valid = true → (p.word 0).toNat / 2 ^ 32 % 64 = tgt.toNat / 2 ^ 33 % 64 →
    exec (.exitNoticeArrive (.far g bs)) s = .next (s.setPlot n ({ s.plot n with
      exits := (s.plot n).exits ++ maskRows (wordAt bs 0) base (tgt.toNat / 2 ^ 27 % 64) } : Plot).exitNext)) ∧
  (∀ mask base block e, e ∈ maskRows mask base block ↔ ∃ i, i < 64 ∧ mask.getLsbD i = true ∧ e = (base + i, block)) ∧
  (∀ (p : Plot) r block rest, p.exits = (r, block) :: rest → p.exitNext.exits = rest ∧
    ∀ q, Tab.getD p.exitNext.rcw q 0 = (let w := Tab.getD p.rcw q 0
      if q = r ∧ w.toNat % 4 ≠ 2 then BitVec.ofNat 32 (w.toNat / 2 ^ 16 * 2 ^ 16 + block * 4 + 2) else w)) ∧
  (∀ (s : State) d n p, s.plots.find? (fun e => e.1 / 32 == d && !e.2.exits.isEmpty) = some (n, p) →
    exec (.exitNoticeArrive (.own d)) s = .next (s.setPlot n p.exitNext)) ∧
  (∀ (s : State) d n rest, (∀ e ∈ s.plots, e.1 / 32 = d → e.2.exits = []) →
    (s.die d).notices = n :: rest → s.fab.pkg = some (n.target.toNat % 2 ^ 10) →
    exec (.exitNoticeArrive (.own d)) s =
      .next ((s.setDie d { s.die d with notices := rest }).takeNotice n.tenant n.mask n.target)) ∧
  (∀ (s : State) d n rest, (∀ e ∈ s.plots, e.1 / 32 = d → e.2.exits = []) →
    (s.die d).notices = n :: rest → s.fab.pkg ≠ some (n.target.toNat % 2 ^ 10) →
    exec (.exitNoticeArrive (.own d)) s =
      .next ((s.setDie d { s.die d with notices := rest }).raiseNotice (n.target.toNat % 2 ^ 10) (.exit n))) ∧
  (∀ (s : State) d cause n rest t, (s.die d).notices = n :: rest → s.fab.pkg ≠ some (n.target.toNat % 2 ^ 10) →
    s.task? n.uid = some t → t.phase ≠ .ended → t.phase ≠ .aborted → ∃ s' u, exec (.noticeDeliveryFailure d cause) s = .next s' ∧
      (s'.die d).notices = rest ∧ s'.task? n.uid = some u ∧ u.flow.lates = t.flow.lates ++ [0] ∧ u.regs = t.regs) ∧
  (∀ (s : State) c t y rest, s.Inv → s.task? c = some t → t.q.sigcs = y :: rest → y.sent = none → t.homeBelow y.seq = true →
    (∀ i ∈ y.work, i ∉ s.outstanding c) → s.holds c y.seq (y.pa / 64) = false → s.home y.pa →
    ∃ s' u, exec (.sigcWrite c) s = .next s' ∧ s.wrote y.pa (toLe 8 y.val.toNat) s' ∧ s'.full y.pa = true ∧
      s'.task? c = some u ∧ u.q.sigcs = rest) ∧
  (∀ (s : State) n ext bs s1 p s2, s.Inv → (s.slot n).st = 1 → s.launcherReady (s.slot n) = true →
    s.recordRead (s.slot n).who ext ((s.slot n).get 11 0 56) = .ok (bs, s1) →
    s1.counterAt (s.slot n).who ((wordAt bs 0x50).toNat % 2 ^ 56) = some (p, s2) → s.home p.pa → recordOk bs (s.slot n).launcherPl = true →
    (s.template ((wordAt bs 0x40).toNat / 2 ^ 8 % 16) 0).getLsbD 63 = true → (wordAt bs 0x48).toNat % 2 ^ 40 ≠ 0 →
    let z := s.applyTemplate { s.slot n with ctr := p.pa, ctrPol := p.pol } bs
    z.fits = true → z.get 0 58 1 = 0 → ∃ s', exec (.launchRecordRead n ext) s = .next s' ∧ s'.word p.pa = 0 ∧
      s'.full p.pa = false ∧ (s'.slot n).st = 3 ∧ (s'.slot n).next = 0 ∧ (s'.slot n).holding = false) ∧
  (∀ (s : State) n ext code va, (s.slot n).st = 1 → s.launcherReady (s.slot n) = true →
    s.recordRead (s.slot n).who ext ((s.slot n).get 11 0 56) = .error (code, va) → code ≠ heldCode →
    ∃ s', exec (.launchRecordRead n ext) s = .next s' ∧ (s'.slot n).v = false ∧ Report.launch n 1 ∈ s'.reports) ∧
  (∀ (s : State) p ext n x bs s1, p < 128 → (s.plot p).pickedAt ≠ s.cycle + 1 → (∀ q, q < p → s.picksNow n q = false) →
    s.pick p = some (n, x) → Tab.get? s.slots n = some x → x.size = 1 → x.disp = false → s.mayPlace x p = true →
    s.recordRead x.who ext (x.get 11 0 56) = .ok (bs, s1) →
    retakenOk bs (x.launcherPl == 0) = true → ∃ s' t c, exec (.groupPlace p ext) s = .next s' ∧ s'.task? s.fresh = some t ∧
      t.ctx = some c ∧ c / 32 = p ∧ s.atCtx c = none ∧ t.phase = .ready ∧ t.pl = x.get 0 56 2 ∧ t.csr.taskid.toNat = c % 2 ^ 64 ∧
      (∀ i, i < 8 → t.regs.getS (i + 1) = wordAt bs (8 * i)) ∧ t.csr.ovfptr = address (wordAt bs 0x68) ∧
      (s'.slot n).next = x.next + 1) ∧
  (∀ (s : State) p, (s.plot p).flip = true → (s.plot p).shadow.valid = true →
    (∀ e ∈ s.tasks, (∃ c, e.2.ctx = some c ∧ c / 32 = p) → e.2.phase = .yielded) → exec (.planeFlip p) s =
      .next (s.setPlot p { s.plot p with active := (s.plot p).shadow, shadow := (s.plot p).active, flip := false }))

/-! ## Wait cycles and planes -/

/-- The wait probe (R17, R336): a task that has been Blocked for 128 cycles, and again every 65,536, sends a probe along its
edges; its own probe come back makes a report; another's goes on from a Blocked task for at most 4,096 hops and ends
elsewhere; a cycle without a grid edge aborts what is listed, and with one only a grid in a dispatch-order wait faults; the
edges of a barrier, of the Acre and of a line, those of a line to the waiting task itself among them. The edges are the model's reading of R336 (DEDUCED, log entry 36). -/
def Obligations.WaitCycles : Prop :=
  (∀ (s : State) c t why, s.task? c = some t → t.phase = .blocked why → 128 ≤ t.job.blockedFor →
    (t.job.blockedFor - 128) % 65536 = 0 →
    let new : List Probe := (s.edges c t why).1.map (fun u => ⟨c, u, [t.no], (s.edges c t why).2, 1⟩)
    exec (.probeSend c) s = .next { s with probes := s.probes ++ new }) ∧
  (∀ (s : State) n p, s.probes[n]? = some p →
    (p.at_ = p.origin → exec (.probeReceive n) s =
      .next { s with probes := s.probes.eraseIdx n, reports := s.reports ++ [.probe p.path p.marks] }) ∧
    (∀ t why, p.at_ ≠ p.origin → p.hops < 4096 → s.task? p.at_ = some t → t.phase = .blocked why →
      let e := s.edges p.at_ t why
      let on : List Probe := e.1.map (fun u => ⟨p.origin, u, p.path ++ [t.no], p.marks ++ e.2, p.hops + 1⟩)
      exec (.probeReceive n) s = .next { s with probes := s.probes.eraseIdx n ++ on }) ∧
    (p.at_ ≠ p.origin → 4096 ≤ p.hops ∨ (∀ t why, s.task? p.at_ = some t → t.phase ≠ .blocked why) →
      exec (.probeReceive n) s = .next { s with probes := s.probes.eraseIdx n })) ∧
  (∀ (s : State) n path, s.reports[n]? = some (.probe path []) → ∃ s', exec (.waitProbeReport n) s = .next s' ∧
    ∀ c ∈ path, ∀ u t, s.atCtx c = some (u, t) → s.task? u = some t → t.phase ≠ .aborted → s'.gone u) ∧
  (∀ (s : State) n path m, s.reports[n]? = some (.probe path [m]) →
    let s1 := { s with reports := s.reports.eraseIdx n }
    (s1.orderWait m = false → exec (.waitProbeReport n) s = .next s1) ∧
    (s1.orderWait m = true → exec (.waitProbeReport n) s = .next (s1.faultGrid m 3))) ∧
  (∀ (s : State) uid t u, u ∈ (s.edges uid t .barrier).1 ↔ u ≠ uid ∧ ∃ v, (u, v) ∈ s.gang t ∧ v.job.arrived = false) ∧
  (∀ (s : State) uid t u, u ∈ (s.edges uid t .acre).1 ↔ u ≠ uid ∧ ∃ e l, (e, l) ∈ (s.plot t.plot).leases ∧ l.holder = .task u) ∧
  (∀ (s : State) uid t l u, u ∈ (s.edges uid t (.line l)).1 ↔
    s.lineAsked l = false ∧ ∃ v, (u, v) ∈ s.tasks ∧ (if u = uid then v.besides (.line l) else v).writesLine l = true)

/-- Planes (R256 to R259, R290, R324, R325, R370): GO loads the image at the loader's address, behind which its signature
stands, into the shadow plane, and the loader's status tells how it went, the plane in force untouched; a flip requested
asks the tasks of the plot to yield. Where the image and its signature lie, and the loader's status codes, are the model's
(DESIGN CHOICE, log entries 7 and 24).

Bind records (R309, R310, R314): a write of a slot, where it is allowed, opens a free slot as held, changes a held one,
gives it up with STATE 0, and with STATE 3 binds it; a slot in any other state keeps its record. -/
def Obligations.PlanesAndSlots : Prop :=
  ((∀ (s : State) w n, n < 128 → WrittenBy s w (.loaderGo w n) (Allowed s w) (fun s' =>
    let a := (s.plot n).loader.image.toNat % 2 ^ 56
    let img := s.bytes a 0x4C000
    (s'.plot n).active = (s.plot n).active ∧ (∀ x, s'.at x = s.at x) ∧
    (Config.verify [] img (s.bytes (a + 0x4C000) 132) = false →
      (s'.plot n).shadow.valid = false ∧ (s'.plot n).loader.status = 3) ∧
    (Config.verify [] img (s.bytes (a + 0x4C000) 132) = true → (planeOf img).ok = false →
      (s'.plot n).shadow.valid = false ∧ (s'.plot n).loader.status = 4) ∧
    (Config.verify [] img (s.bytes (a + 0x4C000) 132) = true → (planeOf img).ok = true →
      (s'.plot n).shadow.valid = true ∧ (s'.plot n).loader.status = 2 ∧
      (∀ i, i < 0x4C000 → i ≠ 7 → Tab.getD (s'.plot n).shadow.bytes i 0 = s.at (a + i)) ∧
      s'.mgmt.logCount = min (2 ^ 32 - 1) (s.mgmt.logCount + 1)))) ∧
  (∀ (s : State) w n, n < 128 → WrittenBy s w (.loaderFlipRequest w n) (Allowed s w) (fun s' => (s'.plot n).flip = true ∧
    (s'.plot n).active = (s.plot n).active ∧ ((s.plot n).flip = true → s' = s) ∧
    ∀ uid t c, (s.plot n).flip = false → s.task? uid = some t → t.ctx = some c → c / 32 = n → ∃ u, s'.task? uid = some u ∧
      u.csr.tsw.getLsbD 6 = true ∧ u.csr.tsw.getLsbD 9 = true ∧ u.regs = t.regs))) ∧
  ((∀ (s : State) w n ws, WrittenBy s w (.slotTableWrite w n ws) (Allowed s w) (fun s' => 1024 ≤ n → s' = s)) ∧
  (∀ (s : State) w n ws, Allowed s w → n < 1024 →
    let x : Slot := { s.slot n with words := Vector.ofFn (fun (i : Fin 16) => ws.getD i.val 0) }
    ((s.slot n).st = 0 → x.st = 2 → exec (.slotTableWrite w n ws) s = .next (s.setSlot n x)) ∧
    ((s.slot n).st = 0 → x.st ≠ 2 → exec (.slotTableWrite w n ws) s = .next s) ∧
    ((s.slot n).st = 1 ∨ 3 ≤ (s.slot n).st → exec (.slotTableWrite w n ws) s = .next s) ∧
    ((s.slot n).st = 2 → x.st ≠ 0 → x.st ≠ 3 → exec (.slotTableWrite w n ws) s = .next (s.setSlot n (x.put 0 60 3 2))) ∧
    ((s.slot n).st = 2 → x.st = 0 → ∃ s', exec (.slotTableWrite w n ws) s = .next s' ∧ (s'.slot n).v = false) ∧
    ((s.slot n).st = 2 → x.st = 3 → (s.slot n).launcher.isSome = true → x.ok = true → x.g ≠ 0 → x.fits = true →
      ∃ s', exec (.slotTableWrite w n ws) s = .next s' ∧ (s'.slot n).st = 3 ∧ (s'.slot n).next = 0 ∧
        (s.isRemote (s.slot n).ctr = false → s'.full (s.slot n).ctr = false))))
/-! ## The tables of the management registers -/

/-- The tables that the owner and the management core write (R179, R181, R268, R277, R281, R303, R313, R342, R247, R362,
R371): each write is served under its conditions and stores the fields that its entry has, every other register as it was;
a root that changes leaves no entry of its tenant in a translation cache (R186, R188); a window entry shows in the mirror alone
(R342); a page that is no longer pinned loses its contents and no other byte changes (R189); any other write is refused. Corners of register writes are the model's reading (DEDUCED, log entries 41 and 44). -/
def Obligations.TableWrites : Prop :=
  (∀ (s : State) w n v, WrittenBy s w (.rootTableWrite w n v) (CoreRuns s w ∧ n < 64 ∧ (v = 0 ∨ s.rootOk v.toNat = true))
    (fun s' => (∀ o, o ≠ 0x130000 + 8 * n → s'.reg o = s.reg o) ∧ s'.root n = v.toNat ∧ (∀ a, s'.at a = s.at a) ∧
      s'.tasks = s.tasks ∧ ∀ p, p < 128 → (s'.plot p).tc = (s.plot p).tc.filter (fun e => e.tenant != n))) ∧
  (∀ (s : State) w n v, WrittenBy s w (.pinMaskWrite w n v) (CoreRuns s w ∧ n < 256) (fun s' =>
    (∀ o, o ≠ 0x140000 + 8 * (n / 2) → s'.reg o = s.reg o) ∧ s'.pins n = v ∧ (∀ m, m ≠ n → s'.pins m = s.pins m) ∧
      s'.tasks = s.tasks ∧ (∀ m, m ≠ n → Tab.getD s'.slices m [] = Tab.getD s.slices m []) ∧
      ∀ a, (∀ i, i < 32 → (s.pins n).getLsbD i = true → v.getLsbD i = false →
          let base := 0x10000000000 + 0x200000 * n + 0x10000 * i
          a < base ∨ base + 0x10000 ≤ a) → s'.at a = s.at a)) ∧
  (∀ (s : State) w n off v, WrittenBy s w (.classTemplateWrite w n off v) (Allowed s w ∧ n < 16 ∧ off % 8 = 0 ∧ off < 64)
    (fun s' => RegsOnly (fun o => o = 0x120000 + 64 * n + off ∧ off < 0x20) s s' ∧
      (off = 0 → let x := s'.template n 0
        (∀ i, i < 64 → ¬(i < 29 ∧ 24 ≤ i) → ¬(i < 37 ∧ 32 ≤ i) → ¬(i < 58 ∧ 56 ≤ i) → i < 62 → x.getLsbD i = false) ∧
        x.toNat / 2 ^ 62 = v.toNat / 2 ^ 62 ∧ x.toNat / 2 ^ 56 % 4 = min 2 (v.toNat / 2 ^ 56 % 4) ∧
        x.toNat / 2 ^ 32 % 32 = min 23 (v.toNat / 2 ^ 32 % 32) ∧ x.toNat / 2 ^ 24 % 32 = min 23 (v.toNat / 2 ^ 24 % 32)) ∧
      (off = 8 → (s'.template n 1).toNat = v.toNat % 2 ^ 32) ∧ (off = 16 → s'.template n 2 = v) ∧
      (off = 24 → s'.template n 3 = v))) ∧
  (∀ (s : State) w d e off v, WrittenBy s w (.groupTableWrite w d e off v) (CoreRuns s w ∧ d < 4 ∧ e < 256 ∧ off % 8 = 0 ∧
      off < 0x2040 ∧ (off = 0 → v.getLsbD 63 = true → 1 ≤ v.toNat % 2 ^ 13 ∧ v.toNat % 2 ^ 13 ≤ 4096 ∧
        (s.participants d e (v.toNat % 2 ^ 13)).Nodup))
    (fun s' => let o := 0x1000000 + 0x400000 * d + 0x4000 * e + off
      RegsOnly (· = o) s s' ∧
      (off = 0 → (s'.reg o).toNat = v.toNat / 2 ^ 63 * 2 ^ 63 + v.toNat % 2 ^ 13) ∧ (0 < off → off < 0x40 → s'.reg o = 0) ∧
      (0x40 ≤ off → ∀ i, i < 4 → (s'.reg o).toNat / 2 ^ (16 * i) % 2 ^ 16 = v.toNat / 2 ^ (16 * i) % 2 ^ 12))) ∧
  (∀ (s : State) w n w0 w1, WrittenBy s w (.windowTableWrite w n w0 w1) (CoreRuns s w ∧ n < 128 ∧ w0.getLsbD 63 = false ∧
      (w0.getLsbD 62 = true → WindowOk s n (w0, w1)))
    (fun s' => (∀ o, o ≠ 0x150000 + 16 * n → o ≠ 0x150008 + 16 * n → s'.reg o = s.reg o) ∧ s'.tasks = s.tasks ∧
      (∀ x, (∀ a, s.statusBlock = some a → x < a + 0x800 ∨ a + 0x1000 ≤ x) → s'.at x = s.at x) ∧
      (∀ i, i < 64 → (s'.windowEntry n).1.getLsbD i =
        (w0.getLsbD i && (i == 62 || (56 ≤ i && i < 61) || (30 ≤ i && i < 52)))) ∧
      (s'.windowEntry n).2.toNat = w1.toNat % 2 ^ 32)) ∧
  (∀ (s : State) w d v, WrittenBy s w (.hxwinWrite w d v) (Allowed s w ∧ d < 4) (fun s' =>
    (s'.reg (0x180000 + 0x1000 * d)).toNat = max (2 ^ 10) (min (2 ^ 32) (v.toNat % 2 ^ 33)) ∧ (s'.die d).hot = [] ∧
      (s'.die d).windowStart = s.cycle)) ∧
  (∀ (s : State) w n ws, WrittenBy s w (.gleanerRegionWrite w n ws) (Allowed s w ∧ n < 32) (fun s' =>
    RegsOnly (fun o => 0x400000 + 64 * n ≤ o ∧ o < 0x400040 + 64 * n) s s' ∧
      (∀ i, i < 8 → i ≠ 3 → s'.regionWord n i = ws.getD i 0 &&& regionMask i) ∧
      (s'.regionWord n 3).toNat % 2 ^ 59 = (ws.getD 3 0).toNat % 2 ^ 59 ∧
      ((s'.regionWord n 3).getLsbD 63 = true ↔ (ws.getD 3 0).getLsbD 63 = true ∧ regionOk (fun i => ws.getD i 0) = true))) ∧
  (∀ (s : State) w n w0 w1, WrittenBy s w (.routingDirectoryWrite w n w0 w1) (Allowed s w ∧ n < 64) (fun s' =>
    RegsOnly (fun o => o = 0x420000 + 16 * n ∨ o = 0x420008 + 16 * n) s s' ∧
      (s'.reg (0x420000 + 16 * n)).toNat = w0.toNat / 2 ^ 63 * 2 ^ 63 + w0.toNat % 2 ^ 52 / 16 * 16 ∧
      (s'.reg (0x420008 + 16 * n)).toNat = w1.toNat / 2 ^ 32 * 2 ^ 32 + w1.toNat % 2 ^ 13)) ∧
  (∀ (s : State) w d p w0 w1, WrittenBy s w (.acceptancePortWrite w d p w0 w1) (Allowed s w ∧ d < 4 ∧ p < 16 ∧
      (w0.getLsbD 63 = true → portLineOk w0 = true))
    (fun s' => RegsOnly (fun o => o = 0x410000 + 0x1000 * d + 16 * p ∨ o = 0x410008 + 0x1000 * d + 16 * p) s s' ∧
      (s'.port d p).1.toNat = w0.toNat / 2 ^ 63 * 2 ^ 63 + w0.toNat % 2 ^ 52 / 64 * 64 ∧ (s'.port d p).2.toNat = w1.toNat % 64)) ∧
  (∀ (s : State) w off v, WrittenBy s w (.errorRecordClear w off v) (Allowed s w ∧ off % 8 = 0 ∧
      recordAt (off / 32 * 32) = true) (fun s' =>
    RegsOnly (fun o => (o = off ∨ o = off + 8) ∧ off % 32 = 0 ∧ v.getLsbD 63 = true) s s' ∧
      (off % 32 = 0 → v.getLsbD 63 = true → s'.reg off = 0 ∧ s'.reg (off + 8) = 0)))

/-- Writes of single management registers (R180, R286, R341, R360, R362, R365, R366, R369, R370): HOSTDATA by the owner, in recovery
as well, the heartbeat by every master, the counters,
the power cap within its limits, a loader's address and GO, registers of plain data, the partition masks by the management
core alone, the address of the status block, and a refused write of an offset that has no register. That a PCAP out of its
limits is refused is the model's reading (DEDUCED, log entry 40). -/
def Obligations.RegisterWrites : Prop :=
  (∀ (s : State) m, (s.refuse .core) = s ∧ (s.refuse (.master m)).mgmt.own.toNat / 2 ^ 32 % 2 ^ 16 =
      min 65535 (s.mgmt.own.toNat / 2 ^ 32 % 2 ^ 16 + 1) ∧
    (∀ i, i < 32 ∨ 48 ≤ i → (s.refuse (.master m)).mgmt.own.getLsbD i = s.mgmt.own.getLsbD i) ∧
    { s.refuse (.master m) with mgmt := s.mgmt } = s) ∧
  (∀ (s : State) m v, WrittenBy s (.master m) (.mgmtRegisterWrite (.master m) 0x10000 v)
    (Allowed s (.master m) ∨ InRecovery s (.master m)) (fun s' =>
    { s' with mgmt := { s'.mgmt with own := s.mgmt.own } } = s ∧
      ∀ i, i < 64 → s'.mgmt.own.getLsbD i = if i = 8 then v.getLsbD 8 else s.mgmt.own.getLsbD i)) ∧
  (∀ (s : State) m v, s.mgmt.overtemp = false → s.mgmt.recovery = false ∨ m = .board →
    ∃ s', exec (.mgmtRegisterWrite (.master m) 0x10010 v) s = .next s' ∧ s'.mgmt.heartbeat = v ∧ s'.mgmt.own = s.mgmt.own) ∧
  (∀ (s : State) w v, WrittenBy s w (.mgmtRegisterWrite w 0x20010 v) (Allowed s w ∧ 800 ≤ v.toNat ∧ v.toNat ≤ 3200) (fun s' =>
    RegsOnly (· = 0x20010) s s' ∧ s'.reg 0x20010 = v)) ∧
  (∀ (s : State) w d k v, d < 4 → k < 5 → WrittenBy s w (.mgmtRegisterWrite w (0x190000 + 0x100 * d + 8 * k) v) (Allowed s w)
    (fun s' => (s'.die d).counters.getD k 0 = v ∧ s'.mgmt = s.mgmt)) ∧
  (∀ (s : State) w p k v, p < 128 → k < 5 → WrittenBy s w (.mgmtRegisterWrite w (0x1A0000 + 0x40 * p + 8 * k) v) (Allowed s w)
    (fun s' => (s'.plot p).counters.getD k 0 = v ∧ s'.mgmt = s.mgmt)) ∧
  (∀ (s : State) w p v, p < 128 → WrittenBy s w (.mgmtRegisterWrite w (0x300000 + 0x1000 * p) v) (Allowed s w)
    (fun s' => (s'.plot p).loader.image = v ∧ (s'.plot p).active = (s.plot p).active ∧ s'.mgmt = s.mgmt)) ∧
  (∀ (s : State) w p v, p < 128 → v.getLsbD 0 = true →
    exec (.mgmtRegisterWrite w (0x300008 + 0x1000 * p) v) s = exec (.loaderGo w p) s) ∧
  (∀ (s : State) w off v, off = 0x160100 ∨ (∃ i, i < 16 ∧ off = 0x160200 + 8 * i) ∨ (∃ i, i < 0x2000 ∧ off = 0x200000 + 8 * i) →
    WrittenBy s w (.mgmtRegisterWrite w off v) (Allowed s w) (fun s' => RegsOnly (· = off) s s' ∧ s'.reg off = v)) ∧
  (∀ (s : State) w i v, i < 64 → WrittenBy s w (.mgmtRegisterWrite w (0x141000 + 8 * i) v) (CoreRuns s w) (fun s' =>
    RegsOnly (· = 0x141000 + 8 * i) s s' ∧ s'.reg (0x141000 + 8 * i) = v)) ∧
  (∀ (s : State) w v, WrittenBy s w (.mgmtRegisterWrite w 0x160300 v) (Allowed s w) (fun s' =>
    (∀ o, o ≠ 0x160300 → s'.reg o = s.reg o) ∧ s'.reg 0x160300 = v ∧ s'.tasks = s.tasks)) ∧
  (∀ (s : State) w d v, d < 4 → WrittenBy s w (.mgmtRegisterWrite w (0x180008 + 0x1000 * d) v) (Allowed s w) (fun s' =>
    RegsOnly (· = 0x180008 + 0x1000 * d) s s' ∧ s'.hotLimit d = v.toNat % 2 ^ 16)) ∧
  (∀ (s : State) w n v, n < 64 → exec (.mgmtRegisterWrite w (0x130000 + 8 * n) v) s = exec (.rootTableWrite w n v) s) ∧
  (∀ (s : State) w off v, 0x600000 ≤ off → off < 0x1000000 → exec (.mgmtRegisterWrite w off v) s = .next (s.refuse w))

/-! ## The package edge -/

/-- Links (R341, R343, R349, R350, R353): flits are taken in sequence and once, an acknowledgement empties the retry buffer up to
it and delivers the notices sent by then, and a lane that fails on an UP link starts a width operation without that lane. That
one flit stands for one packet is the model's (DESIGN CHOICE, log entry 38).

Path sets (R351, R352, R356): a notice takes a group out of the sender's path set or puts it back, a changed set comes
into force once nothing sent on the old one is left, and the fabric manager gives the package its number and its routes. -/
def Obligations.LinksAndPaths : Prop :=
  ((∀ (s : State) g seq good last, let x := s.group g
    (¬ x.open → exec (.flitReceive g seq good last) s = .next s) ∧
    (seq < x.rxSeq → exec (.flitReceive g seq good last) s = .next s) ∧
    (x.open → x.rxSeq < seq ∨ (seq = x.rxSeq ∧ good = false) →
      exec (.flitReceive g seq good last) s = .next (s.setGroup g { x with gap := true })) ∧
    (x.open → seq = x.rxSeq → good = true → ∃ s', exec (.flitReceive g seq good last) s = .next s' ∧
      (s'.group g).rxSeq = seq + 1 ∧ (s'.group g).gap = false ∧
      (s'.group g).delivered = (if last then x.delivered + 1 else x.delivered) ∧
      (s'.group g).partial_ = (if last then 0 else x.partial_ + 1) ∧ Group.like (s'.group g) x)) ∧
  (∀ (s : State) g seq, ¬ (s.group g).open → exec (.flitAckReceive g seq) s = .next s) ∧
  (∀ (s : State) g seq, (s.group g).open → s.calm → s.fab.inbound.queued = [] → ∃ s', exec (.flitAckReceive g seq) s = .next s' ∧
      (s'.group g).retry = (s.group g).retry.filter (fun n => seq < n) ∧
      (s'.group g).lane = (s.group g).lane.filter (fun n => seq < n) ∧ s'.fab.reqs = s.fab.reqs ∧ s'.mem = s.mem ∧
      s'.tasks = s.tasks ∧ (∀ h, h ≠ g → s'.group h = s.group h) ∧
      ∀ n, n ∈ s'.fab.notices ↔ n ∈ s.fab.notices ∧ ∀ f, n.sent = some (g, f) → seq < f) ∧
  (∀ (s : State) g seq, ∃ s', exec (.flitAckReceive g seq) s = .next s' ∧ Group.like (s'.group g) (s.group g)) ∧
  (∀ (s : State) g n, g < 32 → s.evenOf g = g → n < (s.group g).span → let x := s.group g
    (x.st = .off ∨ x.st = .down → exec (.laneFailure g n) s = .next s) ∧
    (x.st = .up → x.working.getLsbD n = true → ∃ s', exec (.laneFailure g n) s = .next s' ∧ (s'.group g).st = .retrain ∧
      (s'.group g).op = some false ∧ (s'.group g).working.getLsbD n = false ∧ (s'.group g).preset = x.preset ∧
      (s'.group g).tried = [] ∧ (∀ a, s'.at a = s.at a) ∧
      ∀ a, s.statusBlock = some a → s'.full (a + 64 * g) = false) ∧
    (x.st = .retrain → x.working.getLsbD n = true → ∃ s', exec (.laneFailure g n) s = .next s' ∧ (s'.group g).st = .retrain ∧
      (s'.group g).tried = x.tried ++ x.tries.toList ∧ (s'.group g).working.getLsbD n = false)) ∧
  (∀ (x : Group) w j, x.blockOf w = some j → (j + 1) * w ≤ x.span ∧ ∀ i, i < w → x.working.getLsbD (j * w + i) = true) ∧
  (∀ (x : Group) w, x.tries = some w → (w = 16 ∨ w = 8 ∨ w = 4 ∨ w = 2) ∧ w ∉ x.tried ∧ ∃ j, x.blockOf w = some j) ∧
  (∀ (s : State) g, s.evenOf g = g → let x := s.group g
    (s.statusWord g).toNat / 2 ^ 32 = x.epoch % 2 ^ 32 ∧ (s.statusWord g).toNat / 2 ^ 16 % 2 ^ 16 = if x.st = .off then 0 else x.working.toNat)) ∧
  ((∀ (s : State) q g add, ∃ s', exec (.pathNoticeReceive q g add) s = .next s' ∧
    ((q, g) ∈ s'.fab.peerOut ↔ add = false) ∧ (∀ e, e ≠ (q, g) → (e ∈ s'.fab.peerOut ↔ e ∈ s.fab.peerOut)) ∧
    (add = false → g ∉ s'.pathSet q)) ∧
  (∀ (s : State) q, Tab.get? s.fab.paths q = none ∨ (∃ r ∈ s.fab.reqs, r.held = false ∧ s.reqPkg r = some q) →
    exec (.pathSetSwitch q) s = .next s) ∧
  (∀ (s : State) q, Tab.get? s.fab.paths q ≠ none → (∀ r ∈ s.fab.reqs, r.held = false → s.reqPkg r ≠ some q) →
    ∃ s', exec (.pathSetSwitch q) s = .next s' ∧ Tab.get? s'.fab.paths q = none) ∧
  (∀ (s : State) q g, g ∈ s.pathSet q → let x := s.group g
    g < 32 ∧ (x.preset = 2 ∨ x.preset = 3) ∧ (x.st = .up ∨ x.op = some false) ∧ g ∈ Tab.getD s.fab.routes q [] ∧
      (q, g) ∉ s.fab.peerOut) ∧
  (∀ (s : State) n routes, 1024 ≤ n ∨ s.mgmt.recovery = true → exec (.packageNumberAssign n routes) s = .next s) ∧
  (∀ (s : State) n q gs, n < 1024 → s.mgmt.recovery = false → q < 1024 → ∃ s', exec (.packageNumberAssign n [(q, gs)]) s = .next s' ∧
    s'.fab.pkg = some n ∧ s'.fab.routes = [(q, gs.filter (· < 32))]) ∧
  (∀ (s : State) n routes, n < 1024 → s.mgmt.recovery = false → ∃ s', exec (.packageNumberAssign n routes) s = .next s' ∧ s'.fab.pkg = some n))
/-- Capo (R343 to R349): a write of CAPOREQ stores its fields, is refused with its reason, or starts an operation; QUIESCE,
DRAIN, WITHDRAW, RETRAIN and the end of an operation follow one another, an end raising EPOCH; training takes the next
narrower width when it fails, and none left brings the group DOWN. The order of the refusals and the writes without effect
are the model's reading (DEDUCED, log entry 37). -/
def Obligations.CapoOperations : Prop :=
  (∀ (s : State) w g v, ¬(Allowed s w ∧ g < 32) → exec (.caporeqGo w g v) s = .next (s.refuse w)) ∧
  (∀ (s : State) w g v, Allowed s w → g < 32 → v.getLsbD 63 = false → ∃ s', exec (.caporeqGo w g v) s = .next s' ∧
    (s'.group g).err = 0 ∧ (s'.group g).st = (s.group g).st ∧ (s'.group g).op = (s.group g).op ∧
    (s.evenOf g = g → (s'.group g).lanes.toNat = v.toNat / 2 ^ 16 % 2 ^ 16) ∧
    s'.reg (0x160000 + 8 * g) = v &&& 0x0F00FFFFFFFF0000) ∧
  (∀ (s : State) w g v e, Allowed s w → g < 32 → v.getLsbD 63 = true → s.capoErr g v = e → e ≠ 0 →
    ∃ s', exec (.caporeqGo w g v) s = .next s' ∧ s'.group g = { s.group g with err := e } ∧
      s'.reg (0x160000 + 8 * g) = s.reg (0x160000 + 8 * g)) ∧
  (∀ (s : State) w g v, Allowed s w → g < 32 → v.getLsbD 63 = true → s.capoErr g v = 0 → (s.group g).st = .up →
    v.toNat / 2 ^ 56 % 16 ≠ (s.group g).preset → ∃ s', exec (.caporeqGo w g v) s = .next s' ∧ (s'.group g).st = .quiesce ∧
      (s'.group g).op = some true ∧ (s'.group g).target = v.toNat / 2 ^ 56 % 16 ∧ (s'.group g).failed = 0 ∧
      (s'.group g).lanes.toNat = v.toNat / 2 ^ 16 % 2 ^ 16 ∧ (s'.group g).preset = (s.group g).preset) ∧
  (∀ (s : State) w g v, Allowed s w → g < 32 → v.getLsbD 63 = true → s.capoErr g v = 0 → (s.group g).st = .up →
    v.toNat / 2 ^ 56 % 16 = (s.group g).preset → ∃ s', exec (.caporeqGo w g v) s = .next s' ∧ (s'.group g).st = .retrain ∧
      (s'.group g).op = some false ∧ (s'.group g).preset = (s.group g).preset) ∧
  (∀ (s : State) g v, (s.capoErr g v = 2 → 4 < v.toNat / 2 ^ 56 % 16) ∧ (4 < v.toNat / 2 ^ 56 % 16 → s.capoErr g v ≠ 0)) ∧
  (∀ (s : State) g, (s.group g).st = .quiesce → s.evenOf g = g → ∃ s', exec (.capoDrainBegin g) s = .next s' ∧
    (s'.group g).st = .drain ∧ (s'.group g).drainFrom = s.cycle ∧
    ∀ q l, (s.group g).ualink = true → (s.group g).width ≠ 0 → (q, l) ∈ s.fab.routes → g ∈ l → (q, g) ∉ s.fab.peerOut →
      ∃ sent, (⟨q, .path g false, some g, sent⟩ : NoticeOut) ∈ s'.fab.notices) ∧
  (∀ (s : State) g, (s.group g).st = .drain →
    (¬ s.allFinished (s.members g) → exec (.capoDrainComplete g) s = .next s) ∧
    (s.allFinished (s.members g) → ∃ s', exec (.capoDrainComplete g) s = .next s' ∧ (s'.group g).st = .withdraw ∧
      (s'.group g).withdrawn = (s.windowsOf (s.members g)).map (fun n => (n, s.windowEntry n)) ∧
      ∀ n ∈ s.windowsOf (s.members g), (s'.windowEntry n).1.getLsbD 63 = false)) ∧
  (∀ (s : State) g, (s.group g).st = .drain → (s.group g).drainFrom + s.drainLimit g ≤ s.cycle →
    ∃ s', exec (.capoDrainLimit g) s = .next s' ∧ (s'.group g).st = .withdraw ∧
      (∀ r ∈ s.fab.reqs, r.group ∈ s.members g → r.held = false ∨ r.early = true → ∀ q ∈ s'.fab.reqs, q.tag = r.tag → s.fresh ≤ q.tag) ∧
      ∀ r ∈ s'.fab.inbound.waiting, r.group ∉ s.members g) ∧
  (∀ (s : State) g, (s.group g).st = .withdraw → s.evenOf g = g → ∃ s', exec (.capoWithdrawComplete g) s = .next s' ∧
    ((s.group g).target = 0 → (s'.group g).st = .off ∧ (s'.group g).preset = 0 ∧ (s'.group g).op = none ∧
      (s'.group g).epoch = ((s.group g).epoch + 1) % 2 ^ 32) ∧
    ((s.group g).target ≠ 0 → (s'.group g).st = .retrain ∧
      ((s.group g).op = some true → (s'.group g).preset = (s.group g).target ∧ (s'.group g).txSeq = 0))) ∧
  (∀ (s : State) g w, let x := s.group g
    x.st = .retrain → s.evenOf g = g → x.tries = some w → x.ualink = false ∨ s.fab.pkg ≠ none →
    ∃ s', exec (.capoTrainSuccess g) s = .next s' ∧ (s'.group g).st = .up ∧ (s'.group g).width = w ∧ (s'.group g).op = none ∧
      (s'.group g).epoch = (x.epoch + 1) % 2 ^ 32 ∧ (s'.group g).preset = x.preset) ∧
  (∀ (s : State) g w, let x := s.group g
    x.st = .retrain → s.evenOf g = g → x.tries = some w → x.ualink = false ∨ s.fab.pkg ≠ none →
    let y : Group := { x with tried := x.tried ++ [w] }
    ∃ s', exec (.capoTrainFail g) s = .next s' ∧ (y.tries ≠ none → s' = s.setGroup g y) ∧
      (y.tries = none → (s'.group g).st = .down ∧ (s'.group g).op = none ∧ (s'.group g).width = 0 ∧
        (s'.group g).epoch = (x.epoch + 1) % 2 ^ 32))

/-- Requests between packages (R354): an inbound one is answered at its home, refused with cause 5 for its address or its
sender, made to wait on an empty line, and answered once for each tag; an answer ends the request that it is for; a retry
sends it again, and the timer ends it with cause 6. That an arrival names its group is the model's (DESIGN CHOICE, log
entry 38). -/
def Obligations.FarRequests : Prop :=
  (∀ (s : State) (r : FarRequest), r.group < 32 → let x := s.group (s.evenOf r.group)
    x.ualink = true → (x.st = .up ∨ (x.op ≠ some false ∧ (x.st = .quiesce ∨ x.st = .drain))) →
    (∀ e, s.fab.inbound.answered.find? (fun e => e.1 == (r.pkg, r.tag)) = some e →
      ∃ s', exec (.remoteRequestArrive r) s = .next s' ∧ Told r e.2 s s' ∧ s'.fab.inbound.answered = s.fab.inbound.answered ∧
        (s.calm → ∀ a, s'.at a = s.at a)) ∧
    ((∀ e ∈ s.fab.inbound.answered, e.1 ≠ (r.pkg, r.tag)) →
      (s.farRefused r.addr = true ∨ ¬ s.peer r.pkg → ∃ s', exec (.remoteRequestArrive r) s = .next s' ∧
        Answered r (.fault 5) s s' ∧ (s.calm → ∀ a, s'.at a = s.at a)) ∧
      (s.farRefused r.addr = false → s.peer r.pkg → r.uncorrectable = false →
        (∀ rep s1, s.serve r.addr r.op noAlloc = some (rep, s1) → ∃ s', exec (.remoteRequestArrive r) s = .next s' ∧
          Answered r rep s s' ∧ (s.calm → ∀ a, s'.at a = s1.at a)) ∧
        (s.serve r.addr r.op noAlloc = none →
          (r ∈ s.fab.inbound.waiting → exec (.remoteRequestArrive r) s = .next s) ∧
          (r ∉ s.fab.inbound.waiting → ∃ s', exec (.remoteRequestArrive r) s = .next s' ∧ r ∈ s'.fab.inbound.waiting ∧
            Told r .stillEmpty s s' ∧ (s.calm → ∀ a, s'.at a = s.at a)))))) ∧
  (∀ (s : State) pol pa n, ∃ s', s.serve pa (.read n) pol = some (.data (s.bytes pa n), s') ∧ s'.mem = s.mem) ∧
  (∀ (s : State) pol pa bs, s.Inv → ∃ s', s.serve pa (.write bs) pol = some (.done, s') ∧ s.wrote pa bs s' ∧ s'.empties = s.empties) ∧
  (∀ (s : State) pol pa x, s.Inv → ∃ s', s.serve pa (.signal x) pol = some (.done, s') ∧ s.wrote pa (toLe 8 x.toNat) s' ∧
    s'.full pa = true) ∧
  (∀ (s : State) pol pa x y, (s.full pa = false → s.serve pa (.atomic 0x30 8 x y) pol = none) ∧ (s.full pa = true →
    ∃ s', s.serve pa (.atomic 0x30 8 x y) pol = some (.data (s.bytes pa 8), s') ∧ s'.full pa = false ∧ s'.mem = s.mem)) ∧
  (∀ (s : State) r bs uid seq t a ps, s.asked r → s.reqPkg r ≠ none → r.purpose = .load uid seq → s.task? uid = some t →
    t.q.loads.find? (fun a => a.seq == seq && (t.live || a.fills)) = some a → a.tgt = .mem ps →
    let got (x : Get) : Get := if x.tag = r.tag ∧ x.data = none then x.take t.q bs else x
    exec (.remoteReplyArrive r.tag (.data bs)) s =
      .next (((s.dropReq r.tag).onTask uid (fun t => { t with q := { t.q with gets := t.q.gets.map got } })).loadFrom uid a
        (ps.map (fun p => (a.va, p))))) ∧
  (∀ (s : State) r uid t p, s.asked r → s.reqPkg r ≠ none → r.purpose = .store uid → s.task? uid = some t → t.phase ≠ .aborted →
    t.placeOf r.tag = some p → s.isRemote (p.line * 64) = true →
    ∃ s', exec (.remoteReplyArrive r.tag .done) s = .next s' ∧ (∀ q ∈ s'.fab.reqs, q.tag ≠ r.tag) ∧
      let u := t.dropPlace r.tag
      s'.task? uid = some { u with q := { u.q with gets := u.q.gets.map p.into } }) ∧
  (∀ (s : State) r rep, s.asked r → s.reqPkg r = none → (∀ c, rep ≠ .fault c) →
    (s.serve r.addr r.op r.pol = none → exec (.remoteReplyArrive r.tag rep) s = .next s) ∧
    ∀ got s1, s.serve r.addr r.op r.pol = some (got, s1) → exec (.remoteReplyArrive r.tag rep) s = .next (s1.answer r got)) ∧
  (∀ (s : State) tag rep, (∀ r ∈ s.fab.reqs, r.tag = tag → r.held = false → ¬ (s.group r.group).open) →
    exec (.remoteReplyArrive tag rep) s = .next s) ∧
  (∀ (s : State) r, s.asked r → s.reqPkg r ≠ none → ∃ s', exec (.remoteReplyArrive r.tag .stillEmpty) s = .next s' ∧
    s'.fab.reqs = s.fab.reqs.map (fun q => if q.tag = r.tag then { q with stopped := true } else q)) ∧
  (∀ (s : State) r g, s.asked r → s.reqPkg r ≠ none → r.early = false → r.purpose ≠ .hold → s.pathTo r.addr = .ok (g, false) →
    ∃ s', exec (.retryResponse r.tag) s = .next s' ∧ (s'.group g).retry = (s.group g).retry ++ [(s.group g).txSeq] ∧
      s'.fab.reqs = s.fab.reqs.map (fun q => if q.tag = r.tag then { q with group := g, held := false, early := false, stopped := false } else q)) ∧
  (∀ (s : State) r, r ∈ s.fab.reqs → (∀ q ∈ s.fab.reqs, q.tag = r.tag → q = r) →
    (r.left ≠ 0 ∨ r.stopped = true → exec (.requestTimeout r.tag) s = .next s) ∧
    (r.left = 0 → r.stopped = false → ∃ s', exec (.requestTimeout r.tag) s = .next s' ∧
      (∀ q ∈ s'.fab.reqs, q.tag = r.tag → s.fresh ≤ q.tag) ∧ ∀ uid t p, r.purpose = .store uid → s.task? uid = some t →
        t.phase ≠ .ended → t.phase ≠ .aborted → t.placeOf r.tag = some p →
          ∃ u, s'.task? uid = some u ∧ u.flow.lates = t.flow.lates ++ p.seqs.map (·.2) ∧ u.regs = t.regs))

/-- The host port and the management core (R171, R172, R180, R221, R359, R362): an access of BAR2 or of the management core reads or
writes bytes and leaves full/empty bits, a fill of BAR4 writes 8 bytes and fills their line, a host write needs ownership or
HOSTDATA, and a flush drops the lines of the slice pages it names. That an access where no memory exists is refused, or has no
effect, is the model's (DESIGN CHOICE, log entry 43). -/
def Obligations.HostPort : Prop :=
  (∀ (s : State) a len, s.mgmt.hostUp = true → a + len ≤ 0x18000000000 → s.bytesExist a len = true →
    (∃ s', exec (.hostBar2Access a none len) s = .next s' ∧ s'.mem = s.mem ∧ s'.empties = s.empties) ∧
    (∀ bs, s.Inv → bs.length = len → s.mgmt.own.toNat / 16 % 4 = 2 ∨ s.mgmt.own.getLsbD 8 = true →
      ∃ s', exec (.hostBar2Access a (some bs) len) s = .next s' ∧ s.wrote a bs s' ∧ s'.empties = s.empties) ∧
    (∀ bs, bs.length = len → s.mgmt.own.toNat / 16 % 4 ≠ 2 → s.mgmt.own.getLsbD 8 = false →
      exec (.hostBar2Access a (some bs) len) s = .next (s.refuse (.master .host)))) ∧
  (∀ (s : State) a len, s.mgmt.hostUp = true → a + len ≤ 0x18000000000 → s.bytesExist a len = false →
    exec (.hostBar2Access a none len) s = .next s ∧ ∀ bs, bs.length = len →
      exec (.hostBar2Access a (some bs) len) s = .next (s.refuse (.master .host))) ∧
  (∀ (s : State) a, s.addressable a = true ↔ rangeOf a = .hbm ∨ (∃ p, rangeOf a = .scratch p) ∨
    (∃ n, rangeOf a = .slice n) ∧ s.pinned a = true) ∧
  (∀ (s : State) a bs, s.Inv → s.mgmt.hostUp = true → a + 8 ≤ 0x18000000000 → bs.length = 8 → a % 8 = 0 →
    s.bytesExist a 8 = true → s.mgmt.own.toNat / 16 % 4 = 2 ∨ s.mgmt.own.getLsbD 8 = true →
    ∃ s', exec (.hostBar4Fill a bs) s = .next s' ∧ s.wrote a bs s' ∧ s'.full a = true) ∧
  (∀ (s : State) a bs, s.mgmt.hostUp = true → a + bs.length ≤ 0x18000000000 → bs.length ≠ 8 ∨ a % 8 ≠ 0 ∨ s.bytesExist a 8 = false →
    exec (.hostBar4Fill a bs) s = .next (s.refuse (.master .host))) ∧
  (∀ (s : State) a bs, s.mgmt.hostUp = true → a + bs.length ≤ 0x18000000000 → s.mgmt.own.toNat / 16 % 4 ≠ 2 →
    s.mgmt.own.getLsbD 8 = false → exec (.hostBar4Fill a bs) s = .next (s.refuse (.master .host))) ∧
  (∀ (s : State) a bs, s.mgmt.hostUp = false → exec (.hostBar4Fill a bs) s = .next s) ∧
  (∀ (s : State) a data len, s.mgmt.hostUp = false → exec (.hostBar2Access a data len) s = .next s) ∧
  (∀ (s : State) a len, 4 ≤ s.mgmt.step → s.mgmt.recovery = false → s.localAddr a = a → rangeOf a = .hbm →
    s.bytesExist a len = true →
    (∃ s', exec (.managementCoreAccess a none len) s = .next s' ∧ s'.mem = s.mem ∧ s'.empties = s.empties) ∧
    (∀ bs, s.Inv → bs.length = len → ∃ s', exec (.managementCoreAccess a (some bs) len) s = .next s' ∧ s.wrote a bs s' ∧
      s'.empties = s.empties)) ∧
  (∀ (s : State) off bs, 4 ≤ s.mgmt.step → s.mgmt.recovery = false → s.localAddr (0x18000000000 + off) = 0x18000000000 + off →
    rangeOf (0x18000000000 + off) = .mgmt → bs.length = 8 → exec (.managementCoreAccess (0x18000000000 + off) (some bs) 8) s =
      exec (.mgmtRegisterWrite .core off (BitVec.ofNat 64 (leNat bs))) s) ∧
  (∀ (s : State) a data len, 0 < len → rangeOf (s.localAddr a) = .hole → exec (.managementCoreAccess a data len) s = .next s) ∧
  (∀ (s : State) pages tenant, 4 ≤ s.mgmt.step → s.mgmt.recovery = false → ∃ s',
    exec (.managementFlush pages tenant) s = .next s' ∧ s'.mem = s.mem ∧
    ∀ n l, l ∈ Tab.getD s'.slices n [] ↔ l ∈ Tab.getD s.slices n [] ∧
      (32 * n + Config.slicePage (s.pins n) (Config.sliceSet (s.pins n) l.line) l.way % 32 ∉ pages ∨
        ∃ t, tenant = some t ∧ (s.partition (n / 64) (t % 64)).getLsbD l.way = false))

/-! ## The Gleaner and the acceptance engine -/

/-- The Gleaner (R267 to R274): a request whose group is gone or has nothing to fill leaves the queue; one with data has its records
and its hidden state read once as its service starts, asks for the Acre at the region's priority, and with its last stripe run fills what is empty of its lines and leaves full ones alone; a
parked access asks again after 4,096 cycles; a glean becomes one request for each group with an empty line, as there is room.
Corners of the Gleaner, and the free state of remote lines, are the model's (DEDUCED, log entry 34; DESIGN CHOICE, log entries
15 and 21). -/
def Obligations.GleanerEvents : Prop :=
  (∀ (s : State) d ext n tok l p rest, (s.die d).fills = .fill n tok l p :: rest →
    (s.groupLives n tok l = false → exec (.gleanerServe d ext) s = .next (s.endFill d p)) ∧
    (s.groupLives n tok l = true → (s.die d).serving = none →
      (∀ s1, s.groupRecords (s.gleaner p n) ext n tok l = .ok (none, s1) → exec (.gleanerServe d ext) s = .next (s1.endFill d p)) ∧
      (∀ v s1, s.groupRecords (s.gleaner p n) ext n tok l = .ok (some v, s1) → exec (.gleanerServe d ext) s =
        .next ((s1.setDie d { s1.die d with serving := some v }).leaseGleaner d p (s.regionField n 3 54 5))) ∧
      (∀ e, s.groupRecords (s.gleaner p n) ext n tok l = .error e → exec (.gleanerServe d ext) s =
        .next (if e.1 = heldCode then s.holdAt (s.gleaner p n) e.2 else s.failFill (s.gleaner p n) ext d n tok l p e.1 e.2))) ∧
    (∀ v, s.groupLives n tok l = true → (s.die d).serving = some v →
      (∀ e, s.fillTargets (s.gleaner p n) ext v = .error e → exec (.gleanerServe d ext) s =
        .next (if e.1 = heldCode then s.holdAt (s.gleaner p n) e.2 else s.failFill (s.gleaner p n) ext d n tok l p e.1 e.2)) ∧
      (∀ ws s1, s.fillTargets (s.gleaner p n) ext v = .ok (ws, s1) →
        ((∀ e, (s.plot p).gleanerLease d = some e → e.2.cmds = []) →
          exec (.gleanerServe d ext) s = .next (s.leaseGleaner d p (s.regionField n 3 54 5))) ∧
        (∀ e le c start, let q := (s1.plot p).begin
          ((s.plot p).gleanerLease d).any (fun e => !e.2.cmds.isEmpty) = true → q.gleanerLease d = some (e, le) → le.cmds = [c] →
          c.d + 1 = 2 * stripes (s.regionField n 6 16 16) → q.running = some e → q.turn s1.cycle (q.startOf c)
            (stripeOcc (s.regionField n 6 38 6) v.wtag (s.regionField n 6 0 16) (s.regionField n 6 16 16) c.d) true le.holder =
              .done start →
          ∃ s', exec (.gleanerServe d ext) s = .next s' ∧ (∀ a, s'.at a = (s1.fillLines ws).at a) ∧
            s'.empties = (s1.fillLines ws).empties ∧ (s'.die d).serving = none)))) ∧
  (∀ (s : State) d p prio, (s.plot p).gleanerLease d = none → (∀ r ∈ (s.plot p).waiting, r.holder ≠ .gleaner d) →
    s.leaseGleaner d p prio =
      (s.setPlot p { s.plot p with waiting := insertReq ⟨.gleaner d, prio, none⟩ (s.plot p).waiting }).grantNext p) ∧
  (∀ (s : State) va p ps bs, s.home p.pa → (s.full p.pa = true → s.fillLines [⟨va, p :: ps, bs⟩] = s) ∧
    (s.full p.pa = false → s.Inv → p.fe = true → p.len = bs.length → bs ≠ [] →
      s.wrote p.pa bs (s.fillLines [⟨va, [p], bs⟩]) ∧ (s.fillLines [⟨va, [p], bs⟩]).full p.pa = true)) ∧
  (∀ (s : State) c t, s.task? c = some t →
    ((∀ e ∈ t.q.parked, ∀ at_, e.2.2 = some at_ → s.cycle < at_ + 4096) → exec (.fillRequestReraise c) s = .next s) ∧
    (∀ n va at_ rest, t.q.parked = (n, (va, some at_)) :: rest → at_ + 4096 ≤ s.cycle →
      exec (.fillRequestReraise c) s = .next (s.askFill c n va))) ∧
  (∀ (s : State) d id uid ten pl a n p rest, (s.die d).fills = .glean id uid ten pl a n p :: rest →
    (∃ s', exec (.gleanExpand d) s = .next s' ∧ (∀ x, s'.at x = s.at x) ∧ s'.empties = s.empties) ∧
    (∀ c q qs t, n = 1 → s.task? uid = some t →
      let s0 := s.setDie d { s.die d with fills := rest ++ [.glean id uid ten pl a 1 p] }
      s0.checkAccess { plot := p, tenant := ten, pl := pl } .read a.toNat 64 = .ok c → c.pieces = q :: qs →
      (∀ r tok l, s0.fillGroup ten a.toNat = some (r, tok, l) → s.full q.pa = false →
        ∃ s', exec (.gleanExpand d) s = .next s' ∧
          ((s0.enqueueFill p r tok l).2 = true → s'.task? uid = some (t.done id) ∧ s'.fillAsked r tok l = true) ∧
          ((s0.enqueueFill p r tok l).2 = false → s'.task? uid = some t ∧ .glean id uid ten pl a 1 p ∈ (s'.die d).fills)) ∧
      (s0.fillGroup ten a.toNat = none ∨ s.full q.pa = true →
        ∃ s', exec (.gleanExpand d) s = .next s' ∧ s'.task? uid = some (t.done id)))) ∧
  (∀ (s : State) p r tok l, s.fillAsked r tok l = false → (s.die (p / 32)).fills.length < 256 →
    ((s.enqueueFill p r tok l).1.die (p / 32)).fills = (s.die (p / 32)).fills ++ [.fill r tok l p])

/-- The acceptance engine (R275 to R280): a port whose line is full is emptied and its request taken; of the requests taken
one is served, in the rotation of the ports; the drafts accepted are the longest prefix that its targets hold; the result
word stands at its address with its line full once every write of the request behind the fabric has been answered (R218), and one
that cannot be written is logged. That a request is taken in one step and served in one, or waits whole where one of its accesses
is held, is the model's reading (DEDUCED, log entry 35). -/
def Obligations.AcceptanceEvents : Prop :=
  (∀ (s : State) d p ext, d < 4 → p < 16 → let w := s.port d p
    let pa := w.1.toNat / 64 % 2 ^ 46 * 64
    w.1.getLsbD 63 = true → s.full pa = true → (∀ q ∈ (s.die d).taken, q.port ≠ p) →
    ∃ s', exec (.acceptanceRequest d p ext) s = .next s' ∧ s'.full pa = false ∧ s'.mem = s.mem ∧ (s'.die d).taken =
      (s.die d).taken ++ [⟨p, w.2.toNat % 64, BitVec.ofNat 64 ((s.word pa).toNat % 2 ^ 56)⟩]) ∧
  (∀ (s : State) d p ext, let w := s.port d p
    d < 4 → p < 16 → w.1.getLsbD 63 = false ∨ s.full (w.1.toNat / 64 % 2 ^ 46 * 64) = false ∨ (∃ q ∈ (s.die d).taken, q.port = p) →
    (∀ c, (s.die d).committing = some c → (s.unacked c.span = true → exec (.acceptanceRequest d p ext) s = .next s) ∧
      (s.unacked c.span = false →
        (∀ s', s.landAcceptance d ext c = .ok s' → exec (.acceptanceRequest d p ext) s = .next s') ∧
        (∀ e, s.landAcceptance d ext c = .error e → exec (.acceptanceRequest d p ext) s = .next (s.holdAt e.1 e.2)))) ∧
    ((s.die d).committing = none →
      (s.nextRequest d ext = none → exec (.acceptanceRequest d p ext) s = .next s) ∧
      (∀ q, s.nextRequest d ext = some q →
        let s1 := s.setDie d { s.die d with taken := (s.die d).taken.filter (· != q), nextPort := (q.port + 1) % 16 }
        (∀ s', s1.serveAcceptance d ext q = .ok s' → exec (.acceptanceRequest d p ext) s = .next s') ∧
        (∀ e, s1.serveAcceptance d ext q = .error e → exec (.acceptanceRequest d p ext) s = .next (s.holdAt e.1 e.2))))) ∧
  (∀ (s : State) d ext (c : Committing), let lost := s.fab.lost.any (fun l => decide (c.span.1 ≤ l.tag ∧ l.tag < c.span.2))
    let s1 := (s.noted c.span).setDie d { s.die d with committing := none }
    (c.written = false → s.landAcceptance d ext c =
      s1.writeResult (c.req.who d) ext d c.req c.result (if lost then c.failed else c.word)) ∧
    (c.written = true → s.landAcceptance d ext c = .ok (if lost then s1.resultLost d c.req.port c.result else s1))) ∧
  (∀ (s : State) d ext, ((s.die d).taken = [] → s.nextRequest d ext = none) ∧
    (∀ q, s.nextRequest d ext = some q → q ∈ (s.die d).taken ∧ q.port < 16) ∧
    (∀ q, (s.die d).nextPort < 16 → (s.die d).taken.find? (fun q => q.port == (s.die d).nextPort) = some q →
      (s.seqNamed d ext q = none ∨ ∀ r ∈ (s.die d).taken, r ≠ q → s.seqNamed d ext r ≠ s.seqNamed d ext q) →
      s.nextRequest d ext = some q)) ∧
  (∀ (s : State) d ext (q : AcceptReq) e, s.engRead (q.who d) ext q.addr 64 true = .error e →
    s.serveAcceptance d ext q = if e.1 = heldCode then .error (q.who d, e.2) else
      .ok ((s.logLost (q.who d) ext 0 e.1 e.2).logError (0x500200 + 0x20 * d) 2 q.port (BitVec.ofNat 64 e.2))) ∧
  (∀ (s : State) d ext (q : AcceptReq) r s1 a s2 s3, s.engRead (q.who d) ext q.addr 64 true = .ok (r, s1) →
    s1.readAcceptance (q.who d) ext r = .ok (a, s2) → let n := accepted a.drafts a.targets
    let t := a.targets.getD n 0
    let word := if t.getLsbD 63 = true ∧ t.toNat / 2 ^ 56 % 2 ^ 7 = 0 then resultWord false (a.frag0 + n) n (t.toNat % 2 ^ 32)
      else resultWord true (a.frag0 + 9) n 0xFFFFFFFF
    let bad := resultWord true ((wordAt r 0x20).toNat / 2 ^ 8 % 2 ^ 8 + 9) 0 0xFFFFFFFF
    let span := (s2.fresh, s3.fresh)
    s2.commitSlots (q.who d) ext a n = .ok s3 →
      (s3.unacked span = false → s.serveAcceptance d ext q = s3.writeResult (q.who d) ext d q (wordAt r 0x18) word) ∧
      (s3.unacked span = true → s.serveAcceptance d ext q =
        .ok (s3.setDie d { s3.die d with committing := some ⟨q, span, wordAt r 0x18, word, bad, false⟩ }))) ∧
  (∀ (s : State) d ext (q : AcceptReq) r s1 c, s.engRead (q.who d) ext q.addr 64 true = .ok (r, s1) →
    s1.readAcceptance (q.who d) ext r = .error c ∨ (∃ a s2, s1.readAcceptance (q.who d) ext r = .ok (a, s2) ∧
      s2.commitSlots (q.who d) ext a (accepted a.drafts a.targets) = .error c) →
    s.serveAcceptance d ext q = if c.1 = heldCode then .error (q.who d, c.2) else
      (s1.logLost (q.who d) ext 0 c.1 c.2).writeResult (q.who d) ext d q (wordAt r 0x18)
        (resultWord true ((wordAt r 0x20).toNat / 2 ^ 8 % 2 ^ 8 + 9) 0 0xFFFFFFFF)) ∧
  (∀ ds ts, let n := accepted ds ts
    let holds (i : Nat) : Prop := (ts.getD i 0).getLsbD 63 = true ∧ (ts.getD i 0).toNat / 2 ^ 56 % 2 ^ 7 = 0 ∧
      ds.getD i 0 = (ts.getD i 0).toNat % 2 ^ 32
    n ≤ ds.length ∧ n ≤ ts.length ∧ (∀ i, i < n → holds i) ∧ (n < ds.length → n < ts.length → ¬ holds n)) ∧
  (∀ err next acc token, let w := resultWord err next acc token
    w.getLsbD 63 = true ∧ w.getLsbD 62 = err ∧ w.toNat / 2 ^ 48 % 2 ^ 14 = next % 256 ∧ w.toNat / 2 ^ 40 % 2 ^ 8 = acc % 16 ∧
      w.toNat % 2 ^ 40 = token % 2 ^ 32) ∧
  (∀ (s : State) w ext d q va word p s1, va.toNat % 8 = 0 → s.engTarget w ext true va 8 = .ok ([p], s1) → p.fe = true →
    p.len = 8 → s.home p.pa → s.Inv → ∃ s', s.writeResult w ext d q va word = .ok s' ∧
      s.wrote p.pa (toLe 8 word.toNat) s' ∧ s'.full p.pa = true) ∧
  (∀ (s : State) w ext d q va word, va.toNat % 8 ≠ 0 → s.writeResult w ext d q va word = .ok (s.resultLost d q.port va)) ∧
  (∀ (s : State) w ext d q va word e, va.toNat % 8 = 0 → s.engTarget w ext true va 8 = .error e →
    s.writeResult w ext d q va word = if e.1 = heldCode then .error (w, e.2) else
      .ok ((s.logLost w ext 0 e.1 e.2).resultLost d q.port va)) ∧
  (∀ (s : State) d port va, s.resultLost d port va = s.logError (0x500200 + 0x20 * d) 1 port va)

/-! ## Ownership, trust, configuration and reset -/

/-- Ownership (R2, R360, R361): the commands of OWNCLAIM, where they are allowed and where not, with the board controller's
claim before the host's and the host's before the fabric manager's in one core cycle; the lapse of a handover after 1.5 × 10^9
core cycles, 2.7 × 10^9 cycles, and of ownership with its channel or after 3 × 10^9 core cycles without a heartbeat. How a
claim takes the place of a later one of its core cycle, and what REFUSED counts, are the model's reading (DEDUCED, log entry
41). -/
def Obligations.Ownership : Prop :=
  (∀ (s : State) m code, (m, code) ∈ [(Master.board, 1), (.host, 2), (.fabric, 3)] → s.mgmt.overtemp = false →
    s.mgmt.recovery = false ∨ m = .board →
    let owner := s.mgmt.own.toNat / 16 % 4
    let pend := s.mgmt.own.toNat / 64 % 4
    (owner = 0 → s.mgmt.step = 7 ∨ s.mgmt.recovery = true → ∃ s', exec (.ownclaimClaim m) s = .next s' ∧
      s'.mgmt.own.toNat / 16 % 4 = code ∧ s'.mgmt.logCount = min (2 ^ 32 - 1) (s.mgmt.logCount + 1)) ∧
    (∀ chain log n, code < owner → s.mgmt.claim = some (s.cycle * 5 / 9, chain, log, n) → s.mgmt.step = 7 ∨ s.mgmt.recovery = true →
      ∃ s', exec (.ownclaimClaim m) s = .next s' ∧ s'.mgmt.own.toNat / 16 % 4 = code ∧
        s'.mgmt.logCount = min (2 ^ 32 - 1) (n + 1)) ∧
    ((owner ≠ 0 ∧ (owner ≤ code ∨ ∀ c, s.mgmt.claim = some c → c.1 ≠ s.cycle * 5 / 9)) ∨
      (s.mgmt.step ≠ 7 ∧ s.mgmt.recovery = false) → exec (.ownclaimClaim m) s = .next (s.refuse (.master m))) ∧
    (∀ t : BitVec 2, (owner = code → t ≠ 0 → t.toNat ≠ code → ∃ s', exec (.ownclaimHandover m t) s = .next s' ∧
        s'.mgmt.own.toNat / 64 % 4 = t.toNat ∧ s'.mgmt.own.toNat / 16 % 4 = code ∧ s'.mgmt.pendSince = s.cycle ∧
        s'.mgmt.log = s.mgmt.log) ∧
      (owner ≠ code ∨ t = 0 ∨ t.toNat = code → exec (.ownclaimHandover m t) s = .next (s.refuse (.master m)))) ∧
    (pend = code → ∃ s', exec (.ownclaimAccept m) s = .next s' ∧ s'.mgmt.own.toNat / 16 % 4 = code ∧
      s'.mgmt.own.toNat / 64 % 4 = 0) ∧
    (pend ≠ code → exec (.ownclaimAccept m) s = .next (s.refuse (.master m))) ∧
    (owner = code → ∃ s', exec (.ownclaimRelease m) s = .next s' ∧ s'.mgmt.own.toNat / 16 % 4 = 0 ∧
      s'.mgmt.own.toNat / 64 % 4 = 0 ∧ s'.mgmt.logCount = min (2 ^ 32 - 1) (s.mgmt.logCount + 1)) ∧
    (owner ≠ code → exec (.ownclaimRelease m) s = .next (s.refuse (.master m))) ∧
    (m ≠ .board → owner = code → ∃ s', exec (.ownerChannelFail m) s = .next s' ∧ s'.mgmt.own.toNat / 16 % 4 = 0) ∧
    (owner ≠ code → ∃ s', exec (.ownerChannelFail m) s = .next s' ∧ s'.mgmt.own = s.mgmt.own)) ∧
  (∀ s : State, s.mgmt.own.toNat / 64 % 4 ≠ 0 → s.mgmt.pendSince + 2700000000 ≤ s.cycle → ∃ s', exec .handoverLapse s = .next s' ∧
    s'.mgmt.own.toNat / 64 % 4 = 0 ∧ s'.mgmt.own.toNat / 16 % 4 = s.mgmt.own.toNat / 16 % 4) ∧
  (∀ s : State, s.cycle < s.mgmt.pendSince + 2700000000 → exec .handoverLapse s = .next s) ∧
  (∀ (s : State) v, s.mgmt.overtemp = false → ∃ s', exec (.heartbeatWrite v) s = .next s' ∧ s'.mgmt.heartbeat = v ∧
    s'.mgmt.heartbeatAt = s.cycle ∧ s'.mgmt.own = s.mgmt.own) ∧
  (∀ s : State, s.mgmt.own.toNat / 16 % 4 = 1 → s.mgmt.heartbeatAt + 5400000000 ≤ s.cycle → ∃ s',
    exec .heartbeatTimeout s = .next s' ∧ s'.mgmt.own.toNat / 16 % 4 = 0) ∧
  (∀ s : State, s.cycle < s.mgmt.heartbeatAt + 5400000000 ∨ s.mgmt.own.toNat / 16 % 4 ≠ 1 → exec .heartbeatTimeout s = .next s)

/-- Trust and configuration (R363 to R366): a measurement extends the chain and the count, and is an entry of the log while
there is room; a nonce is answered by a signature over it, the chain and the count; a record is verified, and written to the
slot that is not in use. Signatures and the record's layout are free (DESIGN CHOICE, log entry 7), and what a quote signs
and a log entry digests are the model's reading (DEDUCED, log entries 39, 40 and 42). -/
def Obligations.Configuration : Prop :=
  (∀ (s : State) kind ver subj item, let s' := s.measure kind ver subj item
    s'.mgmt.chain = sha512 (s.mgmt.chain ++ sha512 item) ∧ s'.mgmt.logCount = min (2 ^ 32 - 1) (s.mgmt.logCount + 1) ∧
    (s.mgmt.log.length < 1024 → s'.mgmt.log = s.mgmt.log ++ [⟨kind, ver, subj, sha512 item⟩]) ∧
    (1024 ≤ s.mgmt.log.length → s'.mgmt.log = s.mgmt.log)) ∧
  (∀ (s : State) w nonce, s.mgmt.recovery = false → WrittenBy s w (.quoteNonceWrite w nonce) (Allowed s w ∧ nonce.length = 64) (fun s' =>
    s'.mgmt.nonce = nonce ∧ s'.mgmt.quoteValid = true ∧
      s'.mgmt.quote = Config.sign (nonce ++ s.mgmt.chain ++ toLe 8 s.mgmt.logCount) ∧ s'.mgmt.chain = s.mgmt.chain)) ∧
  (∀ (s : State) w v, v ≠ 1 ∨ s.mgmt.storing ≠ none → exec (.cfgcmdStore w v) s = .next (s.refuse w)) ∧
  (∀ (s : State) w, (Allowed s w ∨ InRecovery s w) →
    s.mgmt.storing = none → let n := (s.reg 0x21000).toNat
    let img := (List.range n).map (fun i => Tab.getD s.mgmt.cfgbuf i 0)
    let stat (v : Nat) : Prop := exec (.cfgcmdStore w 1) s = .next { s with mgmt := { s.mgmt with cfgstat := v } }
    (n < 64 ∨ 32768 < n → stat 6) ∧
    (64 ≤ n → n ≤ 32768 → (Config.recordSigned img = false → stat 4) ∧ (Config.recordSigned img = true →
      (Config.recordVersion img < s.mgmt.rollback → stat 5) ∧ (s.mgmt.rollback ≤ Config.recordVersion img →
        (Config.parseRecord img = none → stat 6) ∧ (Config.parseRecord img ≠ none → ∃ s', exec (.cfgcmdStore w 1) s = .next s' ∧
          s'.mgmt.cfgstat = 1 ∧ (s.mgmt.recovery = false → s'.mgmt.storing = some (!s.mgmt.inUseB, img)) ∧
          s'.mgmt.nvA = s.mgmt.nvA ∧ s'.mgmt.nvB = s.mgmt.nvB))))) ∧
  (∀ (s : State) toB img, s.mgmt.storing = some (toB, img) → ∃ s', exec (.cfgcmdStoreComplete true) s = .next s' ∧
    s'.mgmt.storing = none ∧ s'.mgmt.cfgstat = (if toB then 3 else 2) ∧
    (if toB then s'.mgmt.nvB else s'.mgmt.nvA) = img ∧
    (if toB then s'.mgmt.nvA else s'.mgmt.nvB) = (if toB then s.mgmt.nvA else s.mgmt.nvB)) ∧
  (∀ (s : State) toB img, s.mgmt.storing = some (toB, img) → ∃ s', exec (.cfgcmdStoreComplete false) s = .next s' ∧
    s'.mgmt.storing = none ∧ s'.mgmt.cfgstat = 7 ∧
    (if toB then s'.mgmt.nvA else s'.mgmt.nvB) = (if toB then s.mgmt.nvA else s.mgmt.nvB))

/-- Resets and the clock (R365, R367, R369): a package reset stops at the step that fails with its number in RSTAT, goes to
recovery where no slot holds a valid record, and else brings the package up with memory zeroed, every line full, no task, no
grid and no plane; RCTL resets with its own value alone; 120 degrees hold the package in reset with RSTAT 15; the clock steps
by 100 MHz between its limits. The record after reset, and the corners of recovery, are the model's (DESIGN CHOICE, log
entry 4; DEDUCED, log entry 40). -/
def Obligations.ResetsAndClock : Prop :=
  (∀ (s : State) n, n = 1 ∨ n = 2 ∨ n = 3 → ∃ s', exec (.packageReset n) s = .next s' ∧ s'.mgmt.rstat = n ∧ s'.mgmt.step = n - 1 ∧
    s'.tasks = [] ∧ s'.slots = []) ∧
  (∀ s : State, s.cleared.chosen = none → ∃ s', exec (.packageReset 0) s = .next s' ∧ s'.mgmt.rstat = 3 ∧
    s'.mgmt.recovery = true ∧ s'.mgmt.log = [] ∧ s'.mgmt.own = 0) ∧
  (∀ (s : State) n c, s.cleared.chosen = some c → n < 8 → ∃ s', exec (.packageReset n) s = .next s' ∧ s'.mem = [] ∧
    s'.empties = [] ∧ s'.tasks = [] ∧ s'.slots = [] ∧ (∀ p, (s'.plot p).active.valid = false) ∧ s'.mgmt.own = 0 ∧
    s'.mgmt.recovery = false ∧ s'.mgmt.rstat = n ∧ s'.mgmt.step = (if n = 0 then 7 else n - 1) ∧
    s'.mgmt.nvA = s.mgmt.nvA ∧ s'.mgmt.nvB = s.mgmt.nvB ∧
    (n = 0 ∨ 4 ≤ n → s'.mgmt.rollback = c.2.1.version ∧ s'.mgmt.inUseB = c.1)) ∧
  (∀ s : State, (∀ b r img, s.chosen = some (b, r, img) → (if b then s.mgmt.nvB else s.mgmt.nvA) = img ∧
      Config.recordSigned img = true ∧ s.mgmt.rollback ≤ r.version ∧ r.version = Config.recordVersion img ∧
      ∃ q, Config.parseRecord img = some q ∧ r = { q with version := r.version }) ∧
    (s.chosen = none → s.recordUsable s.mgmt.nvA = false ∧ s.recordUsable s.mgmt.nvB = false)) ∧
  (∀ (s : State) w v, (Allowed s w ∨ InRecovery s w) →
    (v = 0x52535400 → exec (.rctlReset w v) s = exec (.packageReset 0) s) ∧ (v ≠ 0x52535400 → exec (.rctlReset w v) s = .next s)) ∧
  (∀ (s : State) m v, s.mgmt.own.toNat / 16 % 4 = 0 → exec (.rctlReset (.master m) v) s = .next (s.refuse (.master m))) ∧
  (∀ s : State, ∃ s', exec .overtempReset s = .next s' ∧ s'.mgmt.rstat = 15 ∧ s'.tasks = [] ∧ s'.mem = []) ∧
  (∀ s : State, ∃ s', exec .clockThrottleStep s = .next s' ∧ s'.mgmt.clock = max 1200 (s.mgmt.clock - 100) ∧
    { s' with mgmt := { s'.mgmt with clock := s.mgmt.clock } } = s) ∧
  (∀ s : State, ∃ s', exec .clockStepUp s = .next s' ∧ s'.mgmt.clock = min 2700 (s.mgmt.clock + 100) ∧
    { s' with mgmt := { s'.mgmt with clock := s.mgmt.clock } } = s)

/-! ## Every instruction answers -/

/-- No instruction and no event stops the machine, whatever the state and its operands: `exec` and `step` answer a next state.
Every exception of the spec is an entry to a handler, a gang abort or a grid fault (R327, R332), and a refused or impossible
access of an outside master leaves the machine running (R354, R362). -/
def Obligations.EveryInstructionAnswers : Prop :=
  (∀ (i : Instr) (s : State), ∃ t, exec i s = .next t) ∧ (∀ s : State, ∃ t, step s = .next t)

end
end

