-- ==== Sys2Proof/Laws/State.lean ====
section
/-! SUPPORT. The fields of State after each update of it, and the tables: an entry written is read back, the others stay. -/

namespace Sys2Proof.Machine

/-! ## Tables -/

theorem Tab.get?_nil {α : Type} (k : Nat) : Tab.get? ([] : Tab α) k = none := rfl

theorem Tab.get?_cons {α : Type} (j : Nat) (y : α) (t : Tab α) (k : Nat) :
    Tab.get? ((j, y) :: t) k = if j = k then some y else Tab.get? t k := by
  by_cases h : j = k
  · subst h; simp [Tab.get?]
  · have : (j == k) = false := by simp [h]
    simp [Tab.get?, this, h]

@[simp] theorem Tab.get?_set_self {α : Type} (t : Tab α) (k : Nat) (x : α) : Tab.get? (Tab.set t k x) k = some x := by
  induction t with
  | nil => simp [Tab.set, Tab.get?_cons]
  | cons e t ih =>
    obtain ⟨j, y⟩ := e
    unfold Tab.set
    split
    · simp [Tab.get?_cons]
    · split
      · simp [Tab.get?_cons]
      · rw [Tab.get?_cons, if_neg (by omega), ih]

theorem Tab.get?_set_ne {α : Type} (t : Tab α) {k n : Nat} (h : n ≠ k) (x : α) :
    Tab.get? (Tab.set t k x) n = Tab.get? t n := by
  induction t with
  | nil => rw [Tab.set, Tab.get?_cons, if_neg (Ne.symm h)]
  | cons e t ih =>
    obtain ⟨j, y⟩ := e
    unfold Tab.set
    split
    · rw [Tab.get?_cons, if_neg (Ne.symm h)]
    · split
      · rename_i _ hk
        rw [Tab.get?_cons, Tab.get?_cons, if_neg (Ne.symm h), if_neg (by omega)]
      · rw [Tab.get?_cons, Tab.get?_cons, ih]

@[simp] theorem Tab.getD_set_self {α : Type} (t : Tab α) (k : Nat) (x d : α) : Tab.getD (Tab.set t k x) k d = x := by
  simp [Tab.getD]

theorem Tab.getD_set_ne {α : Type} (t : Tab α) {k n : Nat} (h : n ≠ k) (x d : α) :
    Tab.getD (Tab.set t k x) n d = Tab.getD t n d := by
  rw [Tab.getD, Tab.getD, Tab.get?_set_ne t h]

/-! ## Updates of State -/

@[simp] theorem State.setTask_cycle (s : State) (uid : Nat) (t : Task) : (s.setTask uid t).cycle = s.cycle := rfl
@[simp] theorem State.setTask_mem (s : State) (uid : Nat) (t : Task) : (s.setTask uid t).mem = s.mem := rfl
@[simp] theorem State.setTask_empties (s : State) (uid : Nat) (t : Task) : (s.setTask uid t).empties = s.empties := rfl
@[simp] theorem State.setTask_slices (s : State) (uid : Nat) (t : Task) : (s.setTask uid t).slices = s.slices := rfl
@[simp] theorem State.setTask_tasks (s : State) (uid : Nat) (t : Task) : (s.setTask uid t).tasks = Tab.set s.tasks uid t := rfl
@[simp] theorem State.setTask_tillers (s : State) (uid : Nat) (t : Task) : (s.setTask uid t).tillers = s.tillers := rfl
@[simp] theorem State.setTask_plots (s : State) (uid : Nat) (t : Task) : (s.setTask uid t).plots = s.plots := rfl
@[simp] theorem State.setTask_dies (s : State) (uid : Nat) (t : Task) : (s.setTask uid t).dies = s.dies := rfl
@[simp] theorem State.setTask_slots (s : State) (uid : Nat) (t : Task) : (s.setTask uid t).slots = s.slots := rfl
@[simp] theorem State.setTask_fab (s : State) (uid : Nat) (t : Task) : (s.setTask uid t).fab = s.fab := rfl
@[simp] theorem State.setTask_mgmt (s : State) (uid : Nat) (t : Task) : (s.setTask uid t).mgmt = s.mgmt := rfl
@[simp] theorem State.setTask_reports (s : State) (uid : Nat) (t : Task) : (s.setTask uid t).reports = s.reports := rfl
@[simp] theorem State.setTask_probes (s : State) (uid : Nat) (t : Task) : (s.setTask uid t).probes = s.probes := rfl
@[simp] theorem State.setTask_stage (s : State) (uid : Nat) (t : Task) : (s.setTask uid t).stage = s.stage := rfl
@[simp] theorem State.setTask_held (s : State) (uid : Nat) (t : Task) : (s.setTask uid t).held = s.held := rfl
@[simp] theorem State.setTask_agenda (s : State) (uid : Nat) (t : Task) : (s.setTask uid t).agenda = s.agenda := rfl
@[simp] theorem State.setTask_fresh (s : State) (uid : Nat) (t : Task) : (s.setTask uid t).fresh = s.fresh := rfl

@[simp] theorem State.setTiller_cycle (s : State) (n : Nat) (x : Tiller) : (s.setTiller n x).cycle = s.cycle := rfl
@[simp] theorem State.setTiller_mem (s : State) (n : Nat) (x : Tiller) : (s.setTiller n x).mem = s.mem := rfl
@[simp] theorem State.setTiller_empties (s : State) (n : Nat) (x : Tiller) : (s.setTiller n x).empties = s.empties := rfl
@[simp] theorem State.setTiller_slices (s : State) (n : Nat) (x : Tiller) : (s.setTiller n x).slices = s.slices := rfl
@[simp] theorem State.setTiller_tasks (s : State) (n : Nat) (x : Tiller) : (s.setTiller n x).tasks = s.tasks := rfl
@[simp] theorem State.setTiller_tillers (s : State) (n : Nat) (x : Tiller) : (s.setTiller n x).tillers = Tab.set s.tillers n x := rfl
@[simp] theorem State.setTiller_plots (s : State) (n : Nat) (x : Tiller) : (s.setTiller n x).plots = s.plots := rfl
@[simp] theorem State.setTiller_dies (s : State) (n : Nat) (x : Tiller) : (s.setTiller n x).dies = s.dies := rfl
@[simp] theorem State.setTiller_slots (s : State) (n : Nat) (x : Tiller) : (s.setTiller n x).slots = s.slots := rfl
@[simp] theorem State.setTiller_fab (s : State) (n : Nat) (x : Tiller) : (s.setTiller n x).fab = s.fab := rfl
@[simp] theorem State.setTiller_mgmt (s : State) (n : Nat) (x : Tiller) : (s.setTiller n x).mgmt = s.mgmt := rfl
@[simp] theorem State.setTiller_reports (s : State) (n : Nat) (x : Tiller) : (s.setTiller n x).reports = s.reports := rfl
@[simp] theorem State.setTiller_probes (s : State) (n : Nat) (x : Tiller) : (s.setTiller n x).probes = s.probes := rfl
@[simp] theorem State.setTiller_stage (s : State) (n : Nat) (x : Tiller) : (s.setTiller n x).stage = s.stage := rfl
@[simp] theorem State.setTiller_held (s : State) (n : Nat) (x : Tiller) : (s.setTiller n x).held = s.held := rfl
@[simp] theorem State.setTiller_agenda (s : State) (n : Nat) (x : Tiller) : (s.setTiller n x).agenda = s.agenda := rfl
@[simp] theorem State.setTiller_fresh (s : State) (n : Nat) (x : Tiller) : (s.setTiller n x).fresh = s.fresh := rfl

@[simp] theorem State.setPlot_cycle (s : State) (p : Nat) (x : Plot) : (s.setPlot p x).cycle = s.cycle := rfl
@[simp] theorem State.setPlot_mem (s : State) (p : Nat) (x : Plot) : (s.setPlot p x).mem = s.mem := rfl
@[simp] theorem State.setPlot_empties (s : State) (p : Nat) (x : Plot) : (s.setPlot p x).empties = s.empties := rfl
@[simp] theorem State.setPlot_slices (s : State) (p : Nat) (x : Plot) : (s.setPlot p x).slices = s.slices := rfl
@[simp] theorem State.setPlot_tasks (s : State) (p : Nat) (x : Plot) : (s.setPlot p x).tasks = s.tasks := rfl
@[simp] theorem State.setPlot_tillers (s : State) (p : Nat) (x : Plot) : (s.setPlot p x).tillers = s.tillers := rfl
@[simp] theorem State.setPlot_plots (s : State) (p : Nat) (x : Plot) : (s.setPlot p x).plots = Tab.set s.plots p x := rfl
@[simp] theorem State.setPlot_dies (s : State) (p : Nat) (x : Plot) : (s.setPlot p x).dies = s.dies := rfl
@[simp] theorem State.setPlot_slots (s : State) (p : Nat) (x : Plot) : (s.setPlot p x).slots = s.slots := rfl
@[simp] theorem State.setPlot_fab (s : State) (p : Nat) (x : Plot) : (s.setPlot p x).fab = s.fab := rfl
@[simp] theorem State.setPlot_mgmt (s : State) (p : Nat) (x : Plot) : (s.setPlot p x).mgmt = s.mgmt := rfl
@[simp] theorem State.setPlot_reports (s : State) (p : Nat) (x : Plot) : (s.setPlot p x).reports = s.reports := rfl
@[simp] theorem State.setPlot_probes (s : State) (p : Nat) (x : Plot) : (s.setPlot p x).probes = s.probes := rfl
@[simp] theorem State.setPlot_stage (s : State) (p : Nat) (x : Plot) : (s.setPlot p x).stage = s.stage := rfl
@[simp] theorem State.setPlot_held (s : State) (p : Nat) (x : Plot) : (s.setPlot p x).held = s.held := rfl
@[simp] theorem State.setPlot_agenda (s : State) (p : Nat) (x : Plot) : (s.setPlot p x).agenda = s.agenda := rfl
@[simp] theorem State.setPlot_fresh (s : State) (p : Nat) (x : Plot) : (s.setPlot p x).fresh = s.fresh := rfl

@[simp] theorem State.setDie_cycle (s : State) (d : Nat) (x : Die) : (s.setDie d x).cycle = s.cycle := rfl
@[simp] theorem State.setDie_mem (s : State) (d : Nat) (x : Die) : (s.setDie d x).mem = s.mem := rfl
@[simp] theorem State.setDie_empties (s : State) (d : Nat) (x : Die) : (s.setDie d x).empties = s.empties := rfl
@[simp] theorem State.setDie_slices (s : State) (d : Nat) (x : Die) : (s.setDie d x).slices = s.slices := rfl
@[simp] theorem State.setDie_tasks (s : State) (d : Nat) (x : Die) : (s.setDie d x).tasks = s.tasks := rfl
@[simp] theorem State.setDie_tillers (s : State) (d : Nat) (x : Die) : (s.setDie d x).tillers = s.tillers := rfl
@[simp] theorem State.setDie_plots (s : State) (d : Nat) (x : Die) : (s.setDie d x).plots = s.plots := rfl
@[simp] theorem State.setDie_dies (s : State) (d : Nat) (x : Die) : (s.setDie d x).dies = Tab.set s.dies d x := rfl
@[simp] theorem State.setDie_slots (s : State) (d : Nat) (x : Die) : (s.setDie d x).slots = s.slots := rfl
@[simp] theorem State.setDie_fab (s : State) (d : Nat) (x : Die) : (s.setDie d x).fab = s.fab := rfl
@[simp] theorem State.setDie_mgmt (s : State) (d : Nat) (x : Die) : (s.setDie d x).mgmt = s.mgmt := rfl
@[simp] theorem State.setDie_reports (s : State) (d : Nat) (x : Die) : (s.setDie d x).reports = s.reports := rfl
@[simp] theorem State.setDie_probes (s : State) (d : Nat) (x : Die) : (s.setDie d x).probes = s.probes := rfl
@[simp] theorem State.setDie_stage (s : State) (d : Nat) (x : Die) : (s.setDie d x).stage = s.stage := rfl
@[simp] theorem State.setDie_held (s : State) (d : Nat) (x : Die) : (s.setDie d x).held = s.held := rfl
@[simp] theorem State.setDie_agenda (s : State) (d : Nat) (x : Die) : (s.setDie d x).agenda = s.agenda := rfl
@[simp] theorem State.setDie_fresh (s : State) (d : Nat) (x : Die) : (s.setDie d x).fresh = s.fresh := rfl

@[simp] theorem State.setSlot_cycle (s : State) (n : Nat) (x : Slot) : (s.setSlot n x).cycle = s.cycle := rfl
@[simp] theorem State.setSlot_mem (s : State) (n : Nat) (x : Slot) : (s.setSlot n x).mem = s.mem := rfl
@[simp] theorem State.setSlot_empties (s : State) (n : Nat) (x : Slot) : (s.setSlot n x).empties = s.empties := rfl
@[simp] theorem State.setSlot_slices (s : State) (n : Nat) (x : Slot) : (s.setSlot n x).slices = s.slices := rfl
@[simp] theorem State.setSlot_tasks (s : State) (n : Nat) (x : Slot) : (s.setSlot n x).tasks = s.tasks := rfl
@[simp] theorem State.setSlot_tillers (s : State) (n : Nat) (x : Slot) : (s.setSlot n x).tillers = s.tillers := rfl
@[simp] theorem State.setSlot_plots (s : State) (n : Nat) (x : Slot) : (s.setSlot n x).plots = s.plots := rfl
@[simp] theorem State.setSlot_dies (s : State) (n : Nat) (x : Slot) : (s.setSlot n x).dies = s.dies := rfl
@[simp] theorem State.setSlot_slots (s : State) (n : Nat) (x : Slot) : (s.setSlot n x).slots = Tab.set s.slots n x := rfl
@[simp] theorem State.setSlot_fab (s : State) (n : Nat) (x : Slot) : (s.setSlot n x).fab = s.fab := rfl
@[simp] theorem State.setSlot_mgmt (s : State) (n : Nat) (x : Slot) : (s.setSlot n x).mgmt = s.mgmt := rfl
@[simp] theorem State.setSlot_reports (s : State) (n : Nat) (x : Slot) : (s.setSlot n x).reports = s.reports := rfl
@[simp] theorem State.setSlot_probes (s : State) (n : Nat) (x : Slot) : (s.setSlot n x).probes = s.probes := rfl
@[simp] theorem State.setSlot_stage (s : State) (n : Nat) (x : Slot) : (s.setSlot n x).stage = s.stage := rfl
@[simp] theorem State.setSlot_held (s : State) (n : Nat) (x : Slot) : (s.setSlot n x).held = s.held := rfl
@[simp] theorem State.setSlot_agenda (s : State) (n : Nat) (x : Slot) : (s.setSlot n x).agenda = s.agenda := rfl
@[simp] theorem State.setSlot_fresh (s : State) (n : Nat) (x : Slot) : (s.setSlot n x).fresh = s.fresh := rfl

@[simp] theorem State.setGroup_cycle (s : State) (g : Nat) (x : Group) : (s.setGroup g x).cycle = s.cycle := rfl
@[simp] theorem State.setGroup_mem (s : State) (g : Nat) (x : Group) : (s.setGroup g x).mem = s.mem := rfl
@[simp] theorem State.setGroup_empties (s : State) (g : Nat) (x : Group) : (s.setGroup g x).empties = s.empties := rfl
@[simp] theorem State.setGroup_slices (s : State) (g : Nat) (x : Group) : (s.setGroup g x).slices = s.slices := rfl
@[simp] theorem State.setGroup_tasks (s : State) (g : Nat) (x : Group) : (s.setGroup g x).tasks = s.tasks := rfl
@[simp] theorem State.setGroup_tillers (s : State) (g : Nat) (x : Group) : (s.setGroup g x).tillers = s.tillers := rfl
@[simp] theorem State.setGroup_plots (s : State) (g : Nat) (x : Group) : (s.setGroup g x).plots = s.plots := rfl
@[simp] theorem State.setGroup_dies (s : State) (g : Nat) (x : Group) : (s.setGroup g x).dies = s.dies := rfl
@[simp] theorem State.setGroup_slots (s : State) (g : Nat) (x : Group) : (s.setGroup g x).slots = s.slots := rfl
@[simp] theorem State.setGroup_fab (s : State) (g : Nat) (x : Group) : (s.setGroup g x).fab = { s.fab with groups := Tab.set s.fab.groups g x } := rfl
@[simp] theorem State.setGroup_mgmt (s : State) (g : Nat) (x : Group) : (s.setGroup g x).mgmt = s.mgmt := rfl
@[simp] theorem State.setGroup_reports (s : State) (g : Nat) (x : Group) : (s.setGroup g x).reports = s.reports := rfl
@[simp] theorem State.setGroup_probes (s : State) (g : Nat) (x : Group) : (s.setGroup g x).probes = s.probes := rfl
@[simp] theorem State.setGroup_stage (s : State) (g : Nat) (x : Group) : (s.setGroup g x).stage = s.stage := rfl
@[simp] theorem State.setGroup_held (s : State) (g : Nat) (x : Group) : (s.setGroup g x).held = s.held := rfl
@[simp] theorem State.setGroup_agenda (s : State) (g : Nat) (x : Group) : (s.setGroup g x).agenda = s.agenda := rfl
@[simp] theorem State.setGroup_fresh (s : State) (g : Nat) (x : Group) : (s.setGroup g x).fresh = s.fresh := rfl

@[simp] theorem State.setReg_cycle (s : State) (off : Nat) (v : Word) : (s.setReg off v).cycle = s.cycle := rfl
@[simp] theorem State.setReg_mem (s : State) (off : Nat) (v : Word) : (s.setReg off v).mem = s.mem := rfl
@[simp] theorem State.setReg_empties (s : State) (off : Nat) (v : Word) : (s.setReg off v).empties = s.empties := rfl
@[simp] theorem State.setReg_slices (s : State) (off : Nat) (v : Word) : (s.setReg off v).slices = s.slices := rfl
@[simp] theorem State.setReg_tasks (s : State) (off : Nat) (v : Word) : (s.setReg off v).tasks = s.tasks := rfl
@[simp] theorem State.setReg_tillers (s : State) (off : Nat) (v : Word) : (s.setReg off v).tillers = s.tillers := rfl
@[simp] theorem State.setReg_plots (s : State) (off : Nat) (v : Word) : (s.setReg off v).plots = s.plots := rfl
@[simp] theorem State.setReg_dies (s : State) (off : Nat) (v : Word) : (s.setReg off v).dies = s.dies := rfl
@[simp] theorem State.setReg_slots (s : State) (off : Nat) (v : Word) : (s.setReg off v).slots = s.slots := rfl
@[simp] theorem State.setReg_fab (s : State) (off : Nat) (v : Word) : (s.setReg off v).fab = s.fab := rfl
@[simp] theorem State.setReg_mgmt (s : State) (off : Nat) (v : Word) : (s.setReg off v).mgmt = { s.mgmt with regs := Tab.set s.mgmt.regs off v } := rfl
@[simp] theorem State.setReg_reports (s : State) (off : Nat) (v : Word) : (s.setReg off v).reports = s.reports := rfl
@[simp] theorem State.setReg_probes (s : State) (off : Nat) (v : Word) : (s.setReg off v).probes = s.probes := rfl
@[simp] theorem State.setReg_stage (s : State) (off : Nat) (v : Word) : (s.setReg off v).stage = s.stage := rfl
@[simp] theorem State.setReg_held (s : State) (off : Nat) (v : Word) : (s.setReg off v).held = s.held := rfl
@[simp] theorem State.setReg_agenda (s : State) (off : Nat) (v : Word) : (s.setReg off v).agenda = s.agenda := rfl
@[simp] theorem State.setReg_fresh (s : State) (off : Nat) (v : Word) : (s.setReg off v).fresh = s.fresh := rfl

@[simp] theorem State.sendFlit_cycle (s : State) (g : Nat) : (s.sendFlit g).cycle = s.cycle := rfl
@[simp] theorem State.sendFlit_mem (s : State) (g : Nat) : (s.sendFlit g).mem = s.mem := rfl
@[simp] theorem State.sendFlit_empties (s : State) (g : Nat) : (s.sendFlit g).empties = s.empties := rfl
@[simp] theorem State.sendFlit_slices (s : State) (g : Nat) : (s.sendFlit g).slices = s.slices := rfl
@[simp] theorem State.sendFlit_tasks (s : State) (g : Nat) : (s.sendFlit g).tasks = s.tasks := rfl
@[simp] theorem State.sendFlit_tillers (s : State) (g : Nat) : (s.sendFlit g).tillers = s.tillers := rfl
@[simp] theorem State.sendFlit_plots (s : State) (g : Nat) : (s.sendFlit g).plots = s.plots := rfl
@[simp] theorem State.sendFlit_dies (s : State) (g : Nat) : (s.sendFlit g).dies = s.dies := rfl
@[simp] theorem State.sendFlit_slots (s : State) (g : Nat) : (s.sendFlit g).slots = s.slots := rfl
@[simp] theorem State.sendFlit_fab (s : State) (g : Nat) :
    (s.sendFlit g).fab = { s.fab with groups := Tab.set s.fab.groups g { s.group g with
      txSeq := (s.group g).txSeq + 1
      retry := (s.group g).retry ++ [(s.group g).txSeq]
      wire := (s.group g).wire ++ [(s.group g).txSeq] } } := rfl
@[simp] theorem State.sendFlit_mgmt (s : State) (g : Nat) : (s.sendFlit g).mgmt = s.mgmt := rfl
@[simp] theorem State.sendFlit_reports (s : State) (g : Nat) : (s.sendFlit g).reports = s.reports := rfl
@[simp] theorem State.sendFlit_probes (s : State) (g : Nat) : (s.sendFlit g).probes = s.probes := rfl
@[simp] theorem State.sendFlit_stage (s : State) (g : Nat) : (s.sendFlit g).stage = s.stage := rfl
@[simp] theorem State.sendFlit_held (s : State) (g : Nat) : (s.sendFlit g).held = s.held := rfl
@[simp] theorem State.sendFlit_agenda (s : State) (g : Nat) : (s.sendFlit g).agenda = s.agenda := rfl
@[simp] theorem State.sendFlit_fresh (s : State) (g : Nat) : (s.sendFlit g).fresh = s.fresh := rfl
@[simp] theorem State.dropReq_cycle (s : State) (tag : Nat) : (s.dropReq tag).cycle = s.cycle := rfl
@[simp] theorem State.dropReq_mem (s : State) (tag : Nat) : (s.dropReq tag).mem = s.mem := rfl
@[simp] theorem State.dropReq_empties (s : State) (tag : Nat) : (s.dropReq tag).empties = s.empties := rfl
@[simp] theorem State.dropReq_slices (s : State) (tag : Nat) : (s.dropReq tag).slices = s.slices := rfl
@[simp] theorem State.dropReq_tasks (s : State) (tag : Nat) : (s.dropReq tag).tasks = s.tasks := rfl
@[simp] theorem State.dropReq_tillers (s : State) (tag : Nat) : (s.dropReq tag).tillers = s.tillers := rfl
@[simp] theorem State.dropReq_plots (s : State) (tag : Nat) : (s.dropReq tag).plots = s.plots := rfl
@[simp] theorem State.dropReq_dies (s : State) (tag : Nat) : (s.dropReq tag).dies = s.dies := rfl
@[simp] theorem State.dropReq_slots (s : State) (tag : Nat) : (s.dropReq tag).slots = s.slots := rfl
@[simp] theorem State.dropReq_fab (s : State) (tag : Nat) :
    (s.dropReq tag).fab = { s.fab with reqs := s.fab.reqs.filter (fun r => r.tag != tag) } := rfl
@[simp] theorem State.dropReq_mgmt (s : State) (tag : Nat) : (s.dropReq tag).mgmt = s.mgmt := rfl
@[simp] theorem State.dropReq_reports (s : State) (tag : Nat) : (s.dropReq tag).reports = s.reports := rfl
@[simp] theorem State.dropReq_probes (s : State) (tag : Nat) : (s.dropReq tag).probes = s.probes := rfl
@[simp] theorem State.dropReq_stage (s : State) (tag : Nat) : (s.dropReq tag).stage = s.stage := rfl
@[simp] theorem State.dropReq_held (s : State) (tag : Nat) : (s.dropReq tag).held = s.held := rfl
@[simp] theorem State.dropReq_agenda (s : State) (tag : Nat) : (s.dropReq tag).agenda = s.agenda := rfl
@[simp] theorem State.dropReq_fresh (s : State) (tag : Nat) : (s.dropReq tag).fresh = s.fresh := rfl
@[simp] theorem State.onReq_cycle (s : State) (tag : Nat) (f : Req → Req) : (s.onReq tag f).cycle = s.cycle := rfl
@[simp] theorem State.onReq_mem (s : State) (tag : Nat) (f : Req → Req) : (s.onReq tag f).mem = s.mem := rfl
@[simp] theorem State.onReq_empties (s : State) (tag : Nat) (f : Req → Req) : (s.onReq tag f).empties = s.empties := rfl
@[simp] theorem State.onReq_slices (s : State) (tag : Nat) (f : Req → Req) : (s.onReq tag f).slices = s.slices := rfl
@[simp] theorem State.onReq_tasks (s : State) (tag : Nat) (f : Req → Req) : (s.onReq tag f).tasks = s.tasks := rfl
@[simp] theorem State.onReq_tillers (s : State) (tag : Nat) (f : Req → Req) : (s.onReq tag f).tillers = s.tillers := rfl
@[simp] theorem State.onReq_plots (s : State) (tag : Nat) (f : Req → Req) : (s.onReq tag f).plots = s.plots := rfl
@[simp] theorem State.onReq_dies (s : State) (tag : Nat) (f : Req → Req) : (s.onReq tag f).dies = s.dies := rfl
@[simp] theorem State.onReq_slots (s : State) (tag : Nat) (f : Req → Req) : (s.onReq tag f).slots = s.slots := rfl
@[simp] theorem State.onReq_fab (s : State) (tag : Nat) (f : Req → Req) :
    (s.onReq tag f).fab = { s.fab with reqs := s.fab.reqs.map (fun r => if r.tag = tag then f r else r) } := rfl
@[simp] theorem State.onReq_mgmt (s : State) (tag : Nat) (f : Req → Req) : (s.onReq tag f).mgmt = s.mgmt := rfl
@[simp] theorem State.onReq_reports (s : State) (tag : Nat) (f : Req → Req) : (s.onReq tag f).reports = s.reports := rfl
@[simp] theorem State.onReq_probes (s : State) (tag : Nat) (f : Req → Req) : (s.onReq tag f).probes = s.probes := rfl
@[simp] theorem State.onReq_stage (s : State) (tag : Nat) (f : Req → Req) : (s.onReq tag f).stage = s.stage := rfl
@[simp] theorem State.onReq_held (s : State) (tag : Nat) (f : Req → Req) : (s.onReq tag f).held = s.held := rfl
@[simp] theorem State.onReq_agenda (s : State) (tag : Nat) (f : Req → Req) : (s.onReq tag f).agenda = s.agenda := rfl
@[simp] theorem State.onReq_fresh (s : State) (tag : Nat) (f : Req → Req) : (s.onReq tag f).fresh = s.fresh := rfl
@[simp] theorem State.request_cycle (s : State) (p : Purpose) (va : Word) (pa : Nat) (op : FarOp) (pol : Policy) (g : Nat) (held : Bool) :
    (s.request p va pa op pol g held).cycle = s.cycle := by cases held <;> rfl
@[simp] theorem State.request_mem (s : State) (p : Purpose) (va : Word) (pa : Nat) (op : FarOp) (pol : Policy) (g : Nat) (held : Bool) :
    (s.request p va pa op pol g held).mem = s.mem := by cases held <;> rfl
@[simp] theorem State.request_empties (s : State) (p : Purpose) (va : Word) (pa : Nat) (op : FarOp) (pol : Policy) (g : Nat) (held : Bool) :
    (s.request p va pa op pol g held).empties = s.empties := by cases held <;> rfl
@[simp] theorem State.request_slices (s : State) (p : Purpose) (va : Word) (pa : Nat) (op : FarOp) (pol : Policy) (g : Nat) (held : Bool) :
    (s.request p va pa op pol g held).slices = s.slices := by cases held <;> rfl
@[simp] theorem State.request_tasks (s : State) (p : Purpose) (va : Word) (pa : Nat) (op : FarOp) (pol : Policy) (g : Nat) (held : Bool) :
    (s.request p va pa op pol g held).tasks = s.tasks := by cases held <;> rfl
@[simp] theorem State.request_tillers (s : State) (p : Purpose) (va : Word) (pa : Nat) (op : FarOp) (pol : Policy) (g : Nat) (held : Bool) :
    (s.request p va pa op pol g held).tillers = s.tillers := by cases held <;> rfl
@[simp] theorem State.request_plots (s : State) (p : Purpose) (va : Word) (pa : Nat) (op : FarOp) (pol : Policy) (g : Nat) (held : Bool) :
    (s.request p va pa op pol g held).plots = s.plots := by cases held <;> rfl
@[simp] theorem State.request_dies (s : State) (p : Purpose) (va : Word) (pa : Nat) (op : FarOp) (pol : Policy) (g : Nat) (held : Bool) :
    (s.request p va pa op pol g held).dies = s.dies := by cases held <;> rfl
@[simp] theorem State.request_slots (s : State) (p : Purpose) (va : Word) (pa : Nat) (op : FarOp) (pol : Policy) (g : Nat) (held : Bool) :
    (s.request p va pa op pol g held).slots = s.slots := by cases held <;> rfl
@[simp] theorem State.request_mgmt (s : State) (p : Purpose) (va : Word) (pa : Nat) (op : FarOp) (pol : Policy) (g : Nat) (held : Bool) :
    (s.request p va pa op pol g held).mgmt = s.mgmt := by cases held <;> rfl
@[simp] theorem State.request_reports (s : State) (p : Purpose) (va : Word) (pa : Nat) (op : FarOp) (pol : Policy) (g : Nat) (held : Bool) :
    (s.request p va pa op pol g held).reports = s.reports := by cases held <;> rfl
@[simp] theorem State.request_probes (s : State) (p : Purpose) (va : Word) (pa : Nat) (op : FarOp) (pol : Policy) (g : Nat) (held : Bool) :
    (s.request p va pa op pol g held).probes = s.probes := by cases held <;> rfl
@[simp] theorem State.request_stage (s : State) (p : Purpose) (va : Word) (pa : Nat) (op : FarOp) (pol : Policy) (g : Nat) (held : Bool) :
    (s.request p va pa op pol g held).stage = s.stage := by cases held <;> rfl
@[simp] theorem State.request_held (s : State) (p : Purpose) (va : Word) (pa : Nat) (op : FarOp) (pol : Policy) (g : Nat) (held : Bool) :
    (s.request p va pa op pol g held).held = s.held := by cases held <;> rfl
@[simp] theorem State.request_agenda (s : State) (p : Purpose) (va : Word) (pa : Nat) (op : FarOp) (pol : Policy) (g : Nat) (held : Bool) :
    (s.request p va pa op pol g held).agenda = s.agenda := by cases held <;> rfl
@[simp] theorem State.request_fresh (s : State) (p : Purpose) (va : Word) (pa : Nat) (op : FarOp) (pol : Policy) (g : Nat) (held : Bool) :
    (s.request p va pa op pol g held).fresh = s.fresh + 1 := by cases held <;> rfl
@[simp] theorem State.request_reqs (s : State) (p : Purpose) (va : Word) (pa : Nat) (op : FarOp) (pol : Policy) (g : Nat) (held : Bool) :
    (s.request p va pa op pol g held).fab.reqs =
      s.fab.reqs ++ [⟨s.fresh, p, va, pa, op, pol, g, held, false, (s.reg 0x160100).toNat, false⟩] := by cases held <;> rfl
@[simp] theorem State.sendLane_cycle (s : State) (g : Nat) : (s.sendLane g).cycle = s.cycle := rfl
@[simp] theorem State.sendLane_mem (s : State) (g : Nat) : (s.sendLane g).mem = s.mem := rfl
@[simp] theorem State.sendLane_empties (s : State) (g : Nat) : (s.sendLane g).empties = s.empties := rfl
@[simp] theorem State.sendLane_slices (s : State) (g : Nat) : (s.sendLane g).slices = s.slices := rfl
@[simp] theorem State.sendLane_tasks (s : State) (g : Nat) : (s.sendLane g).tasks = s.tasks := rfl
@[simp] theorem State.sendLane_tillers (s : State) (g : Nat) : (s.sendLane g).tillers = s.tillers := rfl
@[simp] theorem State.sendLane_plots (s : State) (g : Nat) : (s.sendLane g).plots = s.plots := rfl
@[simp] theorem State.sendLane_dies (s : State) (g : Nat) : (s.sendLane g).dies = s.dies := rfl
@[simp] theorem State.sendLane_slots (s : State) (g : Nat) : (s.sendLane g).slots = s.slots := rfl
@[simp] theorem State.sendLane_mgmt (s : State) (g : Nat) : (s.sendLane g).mgmt = s.mgmt := rfl
@[simp] theorem State.sendLane_reports (s : State) (g : Nat) : (s.sendLane g).reports = s.reports := rfl
@[simp] theorem State.sendLane_probes (s : State) (g : Nat) : (s.sendLane g).probes = s.probes := rfl
@[simp] theorem State.sendLane_stage (s : State) (g : Nat) : (s.sendLane g).stage = s.stage := rfl
@[simp] theorem State.sendLane_held (s : State) (g : Nat) : (s.sendLane g).held = s.held := rfl
@[simp] theorem State.sendLane_agenda (s : State) (g : Nat) : (s.sendLane g).agenda = s.agenda := rfl
@[simp] theorem State.sendLane_fresh (s : State) (g : Nat) : (s.sendLane g).fresh = s.fresh := rfl
@[simp] theorem State.finish_cycle (s : State) (r : FarRequest) (rep : FarReply) : (s.finish r rep).cycle = s.cycle := rfl
@[simp] theorem State.finish_mem (s : State) (r : FarRequest) (rep : FarReply) : (s.finish r rep).mem = s.mem := rfl
@[simp] theorem State.finish_empties (s : State) (r : FarRequest) (rep : FarReply) : (s.finish r rep).empties = s.empties := rfl
@[simp] theorem State.finish_slices (s : State) (r : FarRequest) (rep : FarReply) : (s.finish r rep).slices = s.slices := rfl
@[simp] theorem State.finish_tasks (s : State) (r : FarRequest) (rep : FarReply) : (s.finish r rep).tasks = s.tasks := rfl
@[simp] theorem State.finish_tillers (s : State) (r : FarRequest) (rep : FarReply) : (s.finish r rep).tillers = s.tillers := rfl
@[simp] theorem State.finish_plots (s : State) (r : FarRequest) (rep : FarReply) : (s.finish r rep).plots = s.plots := rfl
@[simp] theorem State.finish_dies (s : State) (r : FarRequest) (rep : FarReply) : (s.finish r rep).dies = s.dies := rfl
@[simp] theorem State.finish_slots (s : State) (r : FarRequest) (rep : FarReply) : (s.finish r rep).slots = s.slots := rfl
@[simp] theorem State.sendLane_fab (s : State) (g : Nat) :
    (s.sendLane g).fab = { s.fab with groups := Tab.set s.fab.groups g { s.group g with
      txSeq := (s.group g).txSeq + 1
      lane := (s.group g).lane ++ [(s.group g).txSeq]
      wire := (s.group g).wire ++ [(s.group g).txSeq] } } := rfl
@[simp] theorem State.finish_sent (s : State) (r : FarRequest) (rep : FarReply) :
    (s.finish r rep).fab.inbound.sent = s.fab.inbound.sent := rfl
@[simp] theorem State.finish_queued (s : State) (r : FarRequest) (rep : FarReply) :
    (s.finish r rep).fab.inbound.queued = s.fab.inbound.queued := rfl
@[simp] theorem State.finish_answered (s : State) (r : FarRequest) (rep : FarReply) :
    (s.finish r rep).fab.inbound.answered = s.fab.inbound.answered ++ [((r.pkg, r.tag), rep)] := rfl
@[simp] theorem State.replyNow_sent (s : State) (r : FarRequest) (rep : FarReply) :
    (s.replyNow r rep).fab.inbound.sent = s.fab.inbound.sent ++ [(r.pkg, r.tag, rep)] := rfl
@[simp] theorem State.finish_mgmt (s : State) (r : FarRequest) (rep : FarReply) : (s.finish r rep).mgmt = s.mgmt := rfl
@[simp] theorem State.finish_reports (s : State) (r : FarRequest) (rep : FarReply) : (s.finish r rep).reports = s.reports := rfl
@[simp] theorem State.finish_probes (s : State) (r : FarRequest) (rep : FarReply) : (s.finish r rep).probes = s.probes := rfl
@[simp] theorem State.finish_stage (s : State) (r : FarRequest) (rep : FarReply) : (s.finish r rep).stage = s.stage := rfl
@[simp] theorem State.finish_held (s : State) (r : FarRequest) (rep : FarReply) : (s.finish r rep).held = s.held := rfl
@[simp] theorem State.finish_agenda (s : State) (r : FarRequest) (rep : FarReply) : (s.finish r rep).agenda = s.agenda := rfl
@[simp] theorem State.finish_fresh (s : State) (r : FarRequest) (rep : FarReply) : (s.finish r rep).fresh = s.fresh := rfl
@[simp] theorem State.replyNow_cycle (s : State) (r : FarRequest) (rep : FarReply) : (s.replyNow r rep).cycle = s.cycle := rfl
@[simp] theorem State.replyNow_mem (s : State) (r : FarRequest) (rep : FarReply) : (s.replyNow r rep).mem = s.mem := rfl
@[simp] theorem State.replyNow_empties (s : State) (r : FarRequest) (rep : FarReply) : (s.replyNow r rep).empties = s.empties := rfl
@[simp] theorem State.replyNow_slices (s : State) (r : FarRequest) (rep : FarReply) : (s.replyNow r rep).slices = s.slices := rfl
@[simp] theorem State.replyNow_tasks (s : State) (r : FarRequest) (rep : FarReply) : (s.replyNow r rep).tasks = s.tasks := rfl
@[simp] theorem State.replyNow_tillers (s : State) (r : FarRequest) (rep : FarReply) : (s.replyNow r rep).tillers = s.tillers := rfl
@[simp] theorem State.replyNow_plots (s : State) (r : FarRequest) (rep : FarReply) : (s.replyNow r rep).plots = s.plots := rfl
@[simp] theorem State.replyNow_dies (s : State) (r : FarRequest) (rep : FarReply) : (s.replyNow r rep).dies = s.dies := rfl
@[simp] theorem State.replyNow_slots (s : State) (r : FarRequest) (rep : FarReply) : (s.replyNow r rep).slots = s.slots := rfl
@[simp] theorem State.replyNow_mgmt (s : State) (r : FarRequest) (rep : FarReply) : (s.replyNow r rep).mgmt = s.mgmt := rfl
@[simp] theorem State.replyNow_reports (s : State) (r : FarRequest) (rep : FarReply) : (s.replyNow r rep).reports = s.reports := rfl
@[simp] theorem State.replyNow_probes (s : State) (r : FarRequest) (rep : FarReply) : (s.replyNow r rep).probes = s.probes := rfl
@[simp] theorem State.replyNow_stage (s : State) (r : FarRequest) (rep : FarReply) : (s.replyNow r rep).stage = s.stage := rfl
@[simp] theorem State.replyNow_held (s : State) (r : FarRequest) (rep : FarReply) : (s.replyNow r rep).held = s.held := rfl
@[simp] theorem State.replyNow_agenda (s : State) (r : FarRequest) (rep : FarReply) : (s.replyNow r rep).agenda = s.agenda := rfl
@[simp] theorem State.replyNow_fresh (s : State) (r : FarRequest) (rep : FarReply) : (s.replyNow r rep).fresh = s.fresh := rfl

@[simp] theorem State.setOwn_cycle (s : State) (w : Word) : (s.setOwn w).cycle = s.cycle := rfl
@[simp] theorem State.setOwn_mem (s : State) (w : Word) : (s.setOwn w).mem = s.mem := rfl
@[simp] theorem State.setOwn_empties (s : State) (w : Word) : (s.setOwn w).empties = s.empties := rfl
@[simp] theorem State.setOwn_slices (s : State) (w : Word) : (s.setOwn w).slices = s.slices := rfl
@[simp] theorem State.setOwn_tasks (s : State) (w : Word) : (s.setOwn w).tasks = s.tasks := rfl
@[simp] theorem State.setOwn_tillers (s : State) (w : Word) : (s.setOwn w).tillers = s.tillers := rfl
@[simp] theorem State.setOwn_plots (s : State) (w : Word) : (s.setOwn w).plots = s.plots := rfl
@[simp] theorem State.setOwn_dies (s : State) (w : Word) : (s.setOwn w).dies = s.dies := rfl
@[simp] theorem State.setOwn_slots (s : State) (w : Word) : (s.setOwn w).slots = s.slots := rfl
@[simp] theorem State.setOwn_fab (s : State) (w : Word) : (s.setOwn w).fab = s.fab := rfl
@[simp] theorem State.setOwn_mgmt (s : State) (w : Word) : (s.setOwn w).mgmt = { s.mgmt with own := w } := rfl
@[simp] theorem State.setOwn_reports (s : State) (w : Word) : (s.setOwn w).reports = s.reports := rfl
@[simp] theorem State.setOwn_probes (s : State) (w : Word) : (s.setOwn w).probes = s.probes := rfl
@[simp] theorem State.setOwn_stage (s : State) (w : Word) : (s.setOwn w).stage = s.stage := rfl
@[simp] theorem State.setOwn_held (s : State) (w : Word) : (s.setOwn w).held = s.held := rfl
@[simp] theorem State.setOwn_agenda (s : State) (w : Word) : (s.setOwn w).agenda = s.agenda := rfl
@[simp] theorem State.setOwn_fresh (s : State) (w : Word) : (s.setOwn w).fresh = s.fresh := rfl

@[simp] theorem State.store_cycle (s : State) (a : Nat) (bs : List Byte) : (s.store a bs).cycle = s.cycle := rfl
@[simp] theorem State.store_mem (s : State) (a : Nat) (bs : List Byte) : (s.store a bs).mem = Memory.write s.mem a bs := rfl
@[simp] theorem State.store_empties (s : State) (a : Nat) (bs : List Byte) : (s.store a bs).empties = s.empties := rfl
@[simp] theorem State.store_slices (s : State) (a : Nat) (bs : List Byte) : (s.store a bs).slices = s.slices := rfl
@[simp] theorem State.store_tasks (s : State) (a : Nat) (bs : List Byte) : (s.store a bs).tasks = s.tasks := rfl
@[simp] theorem State.store_tillers (s : State) (a : Nat) (bs : List Byte) : (s.store a bs).tillers = s.tillers := rfl
@[simp] theorem State.store_plots (s : State) (a : Nat) (bs : List Byte) : (s.store a bs).plots = s.plots := rfl
@[simp] theorem State.store_dies (s : State) (a : Nat) (bs : List Byte) : (s.store a bs).dies = s.dies := rfl
@[simp] theorem State.store_slots (s : State) (a : Nat) (bs : List Byte) : (s.store a bs).slots = s.slots := rfl
@[simp] theorem State.store_fab (s : State) (a : Nat) (bs : List Byte) : (s.store a bs).fab = s.fab := rfl
@[simp] theorem State.store_mgmt (s : State) (a : Nat) (bs : List Byte) : (s.store a bs).mgmt = s.mgmt := rfl
@[simp] theorem State.store_reports (s : State) (a : Nat) (bs : List Byte) : (s.store a bs).reports = s.reports := rfl
@[simp] theorem State.store_probes (s : State) (a : Nat) (bs : List Byte) : (s.store a bs).probes = s.probes := rfl
@[simp] theorem State.store_stage (s : State) (a : Nat) (bs : List Byte) : (s.store a bs).stage = s.stage := rfl
@[simp] theorem State.store_held (s : State) (a : Nat) (bs : List Byte) : (s.store a bs).held = s.held := rfl
@[simp] theorem State.store_agenda (s : State) (a : Nat) (bs : List Byte) : (s.store a bs).agenda = s.agenda := rfl
@[simp] theorem State.store_fresh (s : State) (a : Nat) (bs : List Byte) : (s.store a bs).fresh = s.fresh := rfl

@[simp] theorem State.setFull_cycle (s : State) (pa : Nat) : (s.setFull pa).cycle = s.cycle := rfl
@[simp] theorem State.setFull_mem (s : State) (pa : Nat) : (s.setFull pa).mem = s.mem := rfl
@[simp] theorem State.setFull_empties (s : State) (pa : Nat) : (s.setFull pa).empties = s.empties.filter (· != pa / 64) := rfl
@[simp] theorem State.setFull_slices (s : State) (pa : Nat) : (s.setFull pa).slices = s.slices := rfl
@[simp] theorem State.setFull_tasks (s : State) (pa : Nat) : (s.setFull pa).tasks = s.tasks := rfl
@[simp] theorem State.setFull_tillers (s : State) (pa : Nat) : (s.setFull pa).tillers = s.tillers := rfl
@[simp] theorem State.setFull_plots (s : State) (pa : Nat) : (s.setFull pa).plots = s.plots := rfl
@[simp] theorem State.setFull_dies (s : State) (pa : Nat) : (s.setFull pa).dies = s.dies := rfl
@[simp] theorem State.setFull_slots (s : State) (pa : Nat) : (s.setFull pa).slots = s.slots := rfl
@[simp] theorem State.setFull_fab (s : State) (pa : Nat) : (s.setFull pa).fab = s.fab := rfl
@[simp] theorem State.setFull_mgmt (s : State) (pa : Nat) : (s.setFull pa).mgmt = s.mgmt := rfl
@[simp] theorem State.setFull_reports (s : State) (pa : Nat) : (s.setFull pa).reports = s.reports := rfl
@[simp] theorem State.setFull_probes (s : State) (pa : Nat) : (s.setFull pa).probes = s.probes := rfl
@[simp] theorem State.setFull_stage (s : State) (pa : Nat) : (s.setFull pa).stage = s.stage := rfl
@[simp] theorem State.setFull_held (s : State) (pa : Nat) : (s.setFull pa).held = s.held := rfl
@[simp] theorem State.setFull_agenda (s : State) (pa : Nat) : (s.setFull pa).agenda = s.agenda := rfl
@[simp] theorem State.setFull_fresh (s : State) (pa : Nat) : (s.setFull pa).fresh = s.fresh := rfl

@[simp] theorem State.setEmpty_cycle (s : State) (pa : Nat) : (s.setEmpty pa).cycle = s.cycle := rfl
@[simp] theorem State.setEmpty_mem (s : State) (pa : Nat) : (s.setEmpty pa).mem = s.mem := rfl
@[simp] theorem State.setEmpty_empties (s : State) (pa : Nat) : (s.setEmpty pa).empties = insertNat (pa / 64) s.empties := rfl
@[simp] theorem State.setEmpty_slices (s : State) (pa : Nat) : (s.setEmpty pa).slices = s.slices := rfl
@[simp] theorem State.setEmpty_tasks (s : State) (pa : Nat) : (s.setEmpty pa).tasks = s.tasks := rfl
@[simp] theorem State.setEmpty_tillers (s : State) (pa : Nat) : (s.setEmpty pa).tillers = s.tillers := rfl
@[simp] theorem State.setEmpty_plots (s : State) (pa : Nat) : (s.setEmpty pa).plots = s.plots := rfl
@[simp] theorem State.setEmpty_dies (s : State) (pa : Nat) : (s.setEmpty pa).dies = s.dies := rfl
@[simp] theorem State.setEmpty_slots (s : State) (pa : Nat) : (s.setEmpty pa).slots = s.slots := rfl
@[simp] theorem State.setEmpty_fab (s : State) (pa : Nat) : (s.setEmpty pa).fab = s.fab := rfl
@[simp] theorem State.setEmpty_mgmt (s : State) (pa : Nat) : (s.setEmpty pa).mgmt = s.mgmt := rfl
@[simp] theorem State.setEmpty_reports (s : State) (pa : Nat) : (s.setEmpty pa).reports = s.reports := rfl
@[simp] theorem State.setEmpty_probes (s : State) (pa : Nat) : (s.setEmpty pa).probes = s.probes := rfl
@[simp] theorem State.setEmpty_stage (s : State) (pa : Nat) : (s.setEmpty pa).stage = s.stage := rfl
@[simp] theorem State.setEmpty_held (s : State) (pa : Nat) : (s.setEmpty pa).held = s.held := rfl
@[simp] theorem State.setEmpty_agenda (s : State) (pa : Nat) : (s.setEmpty pa).agenda = s.agenda := rfl
@[simp] theorem State.setEmpty_fresh (s : State) (pa : Nat) : (s.setEmpty pa).fresh = s.fresh := rfl

@[simp] theorem State.report_cycle (s : State) (r : Report) : (s.report r).cycle = s.cycle := rfl
@[simp] theorem State.report_mem (s : State) (r : Report) : (s.report r).mem = s.mem := rfl
@[simp] theorem State.report_empties (s : State) (r : Report) : (s.report r).empties = s.empties := rfl
@[simp] theorem State.report_slices (s : State) (r : Report) : (s.report r).slices = s.slices := rfl
@[simp] theorem State.report_tasks (s : State) (r : Report) : (s.report r).tasks = s.tasks := rfl
@[simp] theorem State.report_tillers (s : State) (r : Report) : (s.report r).tillers = s.tillers := rfl
@[simp] theorem State.report_plots (s : State) (r : Report) : (s.report r).plots = s.plots := rfl
@[simp] theorem State.report_dies (s : State) (r : Report) : (s.report r).dies = s.dies := rfl
@[simp] theorem State.report_slots (s : State) (r : Report) : (s.report r).slots = s.slots := rfl
@[simp] theorem State.report_fab (s : State) (r : Report) : (s.report r).fab = s.fab := rfl
@[simp] theorem State.report_mgmt (s : State) (r : Report) : (s.report r).mgmt = s.mgmt := rfl
@[simp] theorem State.report_reports (s : State) (r : Report) : (s.report r).reports = s.reports ++ [r] := rfl
@[simp] theorem State.report_probes (s : State) (r : Report) : (s.report r).probes = s.probes := rfl
@[simp] theorem State.report_stage (s : State) (r : Report) : (s.report r).stage = s.stage := rfl
@[simp] theorem State.report_held (s : State) (r : Report) : (s.report r).held = s.held := rfl
@[simp] theorem State.report_agenda (s : State) (r : Report) : (s.report r).agenda = s.agenda := rfl
@[simp] theorem State.report_fresh (s : State) (r : Report) : (s.report r).fresh = s.fresh := rfl

@[simp] theorem State.mint_cycle (s : State) : s.mint.cycle = s.cycle := rfl
@[simp] theorem State.mint_mem (s : State) : s.mint.mem = s.mem := rfl
@[simp] theorem State.mint_empties (s : State) : s.mint.empties = s.empties := rfl
@[simp] theorem State.mint_slices (s : State) : s.mint.slices = s.slices := rfl
@[simp] theorem State.mint_tasks (s : State) : s.mint.tasks = s.tasks := rfl
@[simp] theorem State.mint_tillers (s : State) : s.mint.tillers = s.tillers := rfl
@[simp] theorem State.mint_plots (s : State) : s.mint.plots = s.plots := rfl
@[simp] theorem State.mint_dies (s : State) : s.mint.dies = s.dies := rfl
@[simp] theorem State.mint_slots (s : State) : s.mint.slots = s.slots := rfl
@[simp] theorem State.mint_fab (s : State) : s.mint.fab = s.fab := rfl
@[simp] theorem State.mint_mgmt (s : State) : s.mint.mgmt = s.mgmt := rfl
@[simp] theorem State.mint_reports (s : State) : s.mint.reports = s.reports := rfl
@[simp] theorem State.mint_probes (s : State) : s.mint.probes = s.probes := rfl
@[simp] theorem State.mint_stage (s : State) : s.mint.stage = s.stage := rfl
@[simp] theorem State.mint_held (s : State) : s.mint.held = s.held := rfl
@[simp] theorem State.mint_agenda (s : State) : s.mint.agenda = s.agenda := rfl
@[simp] theorem State.mint_fresh (s : State) : s.mint.fresh = s.fresh + 1 := rfl

/-! ## A task changed -/

@[simp] theorem State.task?_setTask_self (s : State) (uid : Nat) (t : Task) : (s.setTask uid t).task? uid = some t := by
  simp [State.task?]

theorem State.task?_setTask_ne (s : State) {uid n : Nat} (h : n ≠ uid) (t : Task) :
    (s.setTask uid t).task? n = s.task? n := by
  simp [State.task?, Tab.get?_set_ne _ h]

theorem State.onTask_some {s : State} {uid : Nat} {t : Task} (h : s.task? uid = some t) (f : Task → Task) :
    s.onTask uid f = s.setTask uid (f t) := by simp [State.onTask, h]

theorem State.onTask_none {s : State} {uid : Nat} (h : s.task? uid = none) (f : Task → Task) : s.onTask uid f = s := by
  simp [State.onTask, h]

theorem State.task?_onTask_self (s : State) (uid : Nat) (f : Task → Task) :
    (s.onTask uid f).task? uid = (s.task? uid).map f := by
  cases h : s.task? uid with
  | none => simp [State.onTask_none h, h]
  | some t => simp [State.onTask_some h]

theorem State.task?_onTask_ne (s : State) {uid n : Nat} (h : n ≠ uid) (f : Task → Task) :
    (s.onTask uid f).task? n = s.task? n := by
  cases hu : s.task? uid with
  | none => rw [State.onTask_none hu]
  | some t => rw [State.onTask_some hu, State.task?_setTask_ne s h]

@[simp] theorem State.onTask_cycle (s : State) (uid : Nat) (f : Task → Task) : (s.onTask uid f).cycle = s.cycle := by
  unfold State.onTask; split <;> rfl
@[simp] theorem State.onCur_cycle (s : State) (f : Task → Task) : (s.onCur f).cycle = s.cycle := State.onTask_cycle s _ f
@[simp] theorem State.onTask_mem (s : State) (uid : Nat) (f : Task → Task) : (s.onTask uid f).mem = s.mem := by
  unfold State.onTask; split <;> rfl
@[simp] theorem State.onCur_mem (s : State) (f : Task → Task) : (s.onCur f).mem = s.mem := State.onTask_mem s _ f
@[simp] theorem State.onTask_empties (s : State) (uid : Nat) (f : Task → Task) : (s.onTask uid f).empties = s.empties := by
  unfold State.onTask; split <;> rfl
@[simp] theorem State.onCur_empties (s : State) (f : Task → Task) : (s.onCur f).empties = s.empties := State.onTask_empties s _ f
@[simp] theorem State.onTask_slices (s : State) (uid : Nat) (f : Task → Task) : (s.onTask uid f).slices = s.slices := by
  unfold State.onTask; split <;> rfl
@[simp] theorem State.onCur_slices (s : State) (f : Task → Task) : (s.onCur f).slices = s.slices := State.onTask_slices s _ f
@[simp] theorem State.onTask_tillers (s : State) (uid : Nat) (f : Task → Task) : (s.onTask uid f).tillers = s.tillers := by
  unfold State.onTask; split <;> rfl
@[simp] theorem State.onCur_tillers (s : State) (f : Task → Task) : (s.onCur f).tillers = s.tillers := State.onTask_tillers s _ f
@[simp] theorem State.onTask_plots (s : State) (uid : Nat) (f : Task → Task) : (s.onTask uid f).plots = s.plots := by
  unfold State.onTask; split <;> rfl
@[simp] theorem State.onCur_plots (s : State) (f : Task → Task) : (s.onCur f).plots = s.plots := State.onTask_plots s _ f
@[simp] theorem State.onTask_dies (s : State) (uid : Nat) (f : Task → Task) : (s.onTask uid f).dies = s.dies := by
  unfold State.onTask; split <;> rfl
@[simp] theorem State.onCur_dies (s : State) (f : Task → Task) : (s.onCur f).dies = s.dies := State.onTask_dies s _ f
@[simp] theorem State.onTask_slots (s : State) (uid : Nat) (f : Task → Task) : (s.onTask uid f).slots = s.slots := by
  unfold State.onTask; split <;> rfl
@[simp] theorem State.onCur_slots (s : State) (f : Task → Task) : (s.onCur f).slots = s.slots := State.onTask_slots s _ f
@[simp] theorem State.onTask_fab (s : State) (uid : Nat) (f : Task → Task) : (s.onTask uid f).fab = s.fab := by
  unfold State.onTask; split <;> rfl
@[simp] theorem State.onCur_fab (s : State) (f : Task → Task) : (s.onCur f).fab = s.fab := State.onTask_fab s _ f
@[simp] theorem State.onTask_mgmt (s : State) (uid : Nat) (f : Task → Task) : (s.onTask uid f).mgmt = s.mgmt := by
  unfold State.onTask; split <;> rfl
@[simp] theorem State.onCur_mgmt (s : State) (f : Task → Task) : (s.onCur f).mgmt = s.mgmt := State.onTask_mgmt s _ f
@[simp] theorem State.onTask_reports (s : State) (uid : Nat) (f : Task → Task) : (s.onTask uid f).reports = s.reports := by
  unfold State.onTask; split <;> rfl
@[simp] theorem State.onCur_reports (s : State) (f : Task → Task) : (s.onCur f).reports = s.reports := State.onTask_reports s _ f
@[simp] theorem State.onTask_probes (s : State) (uid : Nat) (f : Task → Task) : (s.onTask uid f).probes = s.probes := by
  unfold State.onTask; split <;> rfl
@[simp] theorem State.onCur_probes (s : State) (f : Task → Task) : (s.onCur f).probes = s.probes := State.onTask_probes s _ f
@[simp] theorem State.onTask_stage (s : State) (uid : Nat) (f : Task → Task) : (s.onTask uid f).stage = s.stage := by
  unfold State.onTask; split <;> rfl
@[simp] theorem State.onCur_stage (s : State) (f : Task → Task) : (s.onCur f).stage = s.stage := State.onTask_stage s _ f
@[simp] theorem State.onTask_held (s : State) (uid : Nat) (f : Task → Task) : (s.onTask uid f).held = s.held := by
  unfold State.onTask; split <;> rfl
@[simp] theorem State.onCur_held (s : State) (f : Task → Task) : (s.onCur f).held = s.held := State.onTask_held s _ f
@[simp] theorem State.onTask_agenda (s : State) (uid : Nat) (f : Task → Task) : (s.onTask uid f).agenda = s.agenda := by
  unfold State.onTask; split <;> rfl
@[simp] theorem State.onCur_agenda (s : State) (f : Task → Task) : (s.onCur f).agenda = s.agenda := State.onTask_agenda s _ f
@[simp] theorem State.onTask_fresh (s : State) (uid : Nat) (f : Task → Task) : (s.onTask uid f).fresh = s.fresh := by
  unfold State.onTask; split <;> rfl
@[simp] theorem State.onCur_fresh (s : State) (f : Task → Task) : (s.onCur f).fresh = s.fresh := State.onTask_fresh s _ f

@[simp] theorem State.pay_cycle (s : State) (bi bm : Nat) : (s.pay bi bm).cycle = s.cycle := State.onCur_cycle _ _
@[simp] theorem State.pay_mem (s : State) (bi bm : Nat) : (s.pay bi bm).mem = s.mem := State.onCur_mem _ _
@[simp] theorem State.pay_empties (s : State) (bi bm : Nat) : (s.pay bi bm).empties = s.empties := State.onCur_empties _ _
@[simp] theorem State.pay_slices (s : State) (bi bm : Nat) : (s.pay bi bm).slices = s.slices := State.onCur_slices _ _
@[simp] theorem State.pay_tillers (s : State) (bi bm : Nat) : (s.pay bi bm).tillers = s.tillers := State.onCur_tillers _ _
@[simp] theorem State.pay_plots (s : State) (bi bm : Nat) : (s.pay bi bm).plots = s.plots := State.onCur_plots _ _
@[simp] theorem State.pay_dies (s : State) (bi bm : Nat) : (s.pay bi bm).dies = s.dies := State.onCur_dies _ _
@[simp] theorem State.pay_slots (s : State) (bi bm : Nat) : (s.pay bi bm).slots = s.slots := State.onCur_slots _ _
@[simp] theorem State.pay_fab (s : State) (bi bm : Nat) : (s.pay bi bm).fab = s.fab := State.onCur_fab _ _
@[simp] theorem State.pay_mgmt (s : State) (bi bm : Nat) : (s.pay bi bm).mgmt = s.mgmt := State.onCur_mgmt _ _
@[simp] theorem State.pay_reports (s : State) (bi bm : Nat) : (s.pay bi bm).reports = s.reports := State.onCur_reports _ _
@[simp] theorem State.pay_probes (s : State) (bi bm : Nat) : (s.pay bi bm).probes = s.probes := State.onCur_probes _ _
@[simp] theorem State.pay_held (s : State) (bi bm : Nat) : (s.pay bi bm).held = s.held := State.onCur_held _ _
@[simp] theorem State.pay_agenda (s : State) (bi bm : Nat) : (s.pay bi bm).agenda = s.agenda := State.onCur_agenda _ _
@[simp] theorem State.pay_fresh (s : State) (bi bm : Nat) : (s.pay bi bm).fresh = s.fresh := State.onCur_fresh _ _
@[simp] theorem State.start_cycle (s : State) (d : Dest) (lat : Nat) (v : Vec) (tag : Tag) : (s.start d lat v tag).cycle = s.cycle := State.onCur_cycle _ _
@[simp] theorem State.start_mem (s : State) (d : Dest) (lat : Nat) (v : Vec) (tag : Tag) : (s.start d lat v tag).mem = s.mem := State.onCur_mem _ _
@[simp] theorem State.start_empties (s : State) (d : Dest) (lat : Nat) (v : Vec) (tag : Tag) : (s.start d lat v tag).empties = s.empties := State.onCur_empties _ _
@[simp] theorem State.start_slices (s : State) (d : Dest) (lat : Nat) (v : Vec) (tag : Tag) : (s.start d lat v tag).slices = s.slices := State.onCur_slices _ _
@[simp] theorem State.start_tillers (s : State) (d : Dest) (lat : Nat) (v : Vec) (tag : Tag) : (s.start d lat v tag).tillers = s.tillers := State.onCur_tillers _ _
@[simp] theorem State.start_plots (s : State) (d : Dest) (lat : Nat) (v : Vec) (tag : Tag) : (s.start d lat v tag).plots = s.plots := State.onCur_plots _ _
@[simp] theorem State.start_dies (s : State) (d : Dest) (lat : Nat) (v : Vec) (tag : Tag) : (s.start d lat v tag).dies = s.dies := State.onCur_dies _ _
@[simp] theorem State.start_slots (s : State) (d : Dest) (lat : Nat) (v : Vec) (tag : Tag) : (s.start d lat v tag).slots = s.slots := State.onCur_slots _ _
@[simp] theorem State.start_fab (s : State) (d : Dest) (lat : Nat) (v : Vec) (tag : Tag) : (s.start d lat v tag).fab = s.fab := State.onCur_fab _ _
@[simp] theorem State.start_mgmt (s : State) (d : Dest) (lat : Nat) (v : Vec) (tag : Tag) : (s.start d lat v tag).mgmt = s.mgmt := State.onCur_mgmt _ _
@[simp] theorem State.start_reports (s : State) (d : Dest) (lat : Nat) (v : Vec) (tag : Tag) : (s.start d lat v tag).reports = s.reports := State.onCur_reports _ _
@[simp] theorem State.start_probes (s : State) (d : Dest) (lat : Nat) (v : Vec) (tag : Tag) : (s.start d lat v tag).probes = s.probes := State.onCur_probes _ _
@[simp] theorem State.start_stage (s : State) (d : Dest) (lat : Nat) (v : Vec) (tag : Tag) : (s.start d lat v tag).stage = s.stage := State.onCur_stage _ _
@[simp] theorem State.start_held (s : State) (d : Dest) (lat : Nat) (v : Vec) (tag : Tag) : (s.start d lat v tag).held = s.held := State.onCur_held _ _
@[simp] theorem State.start_agenda (s : State) (d : Dest) (lat : Nat) (v : Vec) (tag : Tag) : (s.start d lat v tag).agenda = s.agenda := State.onCur_agenda _ _
@[simp] theorem State.start_fresh (s : State) (d : Dest) (lat : Nat) (v : Vec) (tag : Tag) : (s.start d lat v tag).fresh = s.fresh := State.onCur_fresh _ _
@[simp] theorem State.commit_cycle (s : State) (x : Syl) (w : Word) : (s.commit x w).cycle = s.cycle := State.onCur_cycle _ _
@[simp] theorem State.commit_mem (s : State) (x : Syl) (w : Word) : (s.commit x w).mem = s.mem := State.onCur_mem _ _
@[simp] theorem State.commit_empties (s : State) (x : Syl) (w : Word) : (s.commit x w).empties = s.empties := State.onCur_empties _ _
@[simp] theorem State.commit_slices (s : State) (x : Syl) (w : Word) : (s.commit x w).slices = s.slices := State.onCur_slices _ _
@[simp] theorem State.commit_tillers (s : State) (x : Syl) (w : Word) : (s.commit x w).tillers = s.tillers := State.onCur_tillers _ _
@[simp] theorem State.commit_plots (s : State) (x : Syl) (w : Word) : (s.commit x w).plots = s.plots := State.onCur_plots _ _
@[simp] theorem State.commit_dies (s : State) (x : Syl) (w : Word) : (s.commit x w).dies = s.dies := State.onCur_dies _ _
@[simp] theorem State.commit_slots (s : State) (x : Syl) (w : Word) : (s.commit x w).slots = s.slots := State.onCur_slots _ _
@[simp] theorem State.commit_fab (s : State) (x : Syl) (w : Word) : (s.commit x w).fab = s.fab := State.onCur_fab _ _
@[simp] theorem State.commit_mgmt (s : State) (x : Syl) (w : Word) : (s.commit x w).mgmt = s.mgmt := State.onCur_mgmt _ _
@[simp] theorem State.commit_reports (s : State) (x : Syl) (w : Word) : (s.commit x w).reports = s.reports := State.onCur_reports _ _
@[simp] theorem State.commit_probes (s : State) (x : Syl) (w : Word) : (s.commit x w).probes = s.probes := State.onCur_probes _ _
@[simp] theorem State.commit_held (s : State) (x : Syl) (w : Word) : (s.commit x w).held = s.held := State.onCur_held _ _
@[simp] theorem State.commit_agenda (s : State) (x : Syl) (w : Word) : (s.commit x w).agenda = s.agenda := State.onCur_agenda _ _
@[simp] theorem State.commit_fresh (s : State) (x : Syl) (w : Word) : (s.commit x w).fresh = s.fresh := State.onCur_fresh _ _

/-- A task on the stage after a change of it. -/
theorem State.cur_onCur {s : State} (h : s.task? s.stage.uid ≠ none) (f : Task → Task) : (s.onCur f).cur = f s.cur := by
  obtain ⟨t, ht⟩ := Option.ne_none_iff_exists'.mp h
  simp [State.cur, State.onCur, State.onTask_some ht, ht]

end Sys2Proof.Machine
end

