-- ==== Sys2Proof/Laws/Forms.lean ====
section
/-! SUPPORT. What the frame of a syllable does: one lemma per way that it ends. -/

namespace Sys2Proof.Machine

/-! ## Reading operands leaves the stage's registers and planes alone -/

/-- What reading operands keeps: everything but the tasks, what the stage has paid, and what it draws on. -/
structure Kept (s t : State) : Prop where
  mem : t.mem = s.mem
  empties : t.empties = s.empties
  slices : t.slices = s.slices
  tillers : t.tillers = s.tillers
  plots : t.plots = s.plots
  dies : t.dies = s.dies
  slots : t.slots = s.slots
  fab : t.fab = s.fab
  mgmt : t.mgmt = s.mgmt
  reports : t.reports = s.reports
  probes : t.probes = s.probes
  held : t.held = s.held
  agenda : t.agenda = s.agenda
  cycle : t.cycle = s.cycle
  fresh : t.fresh = s.fresh
  stage : ∃ p a, t.stage = { s.stage with paid := p, ahead := a }
  others : ∀ n, n ≠ s.stage.uid → t.task? n = s.task? n

theorem Kept.refl (s : State) : Kept s s where
  mem := rfl
  empties := rfl
  slices := rfl
  tillers := rfl
  plots := rfl
  dies := rfl
  slots := rfl
  fab := rfl
  mgmt := rfl
  reports := rfl
  probes := rfl
  held := rfl
  agenda := rfl
  cycle := rfl
  fresh := rfl
  stage := ⟨s.stage.paid, s.stage.ahead, rfl⟩
  others := fun _ _ => rfl

theorem Kept.uid {s t : State} (h : Kept s t) : t.stage.uid = s.stage.uid := by
  obtain ⟨p, a, hp⟩ := h.stage; rw [hp]

theorem Kept.trans {s t u : State} (h : Kept s t) (k : Kept t u) : Kept s u where
  mem := k.mem.trans h.mem
  empties := k.empties.trans h.empties
  slices := k.slices.trans h.slices
  tillers := k.tillers.trans h.tillers
  plots := k.plots.trans h.plots
  dies := k.dies.trans h.dies
  slots := k.slots.trans h.slots
  fab := k.fab.trans h.fab
  mgmt := k.mgmt.trans h.mgmt
  reports := k.reports.trans h.reports
  probes := k.probes.trans h.probes
  held := k.held.trans h.held
  agenda := k.agenda.trans h.agenda
  cycle := k.cycle.trans h.cycle
  fresh := k.fresh.trans h.fresh
  stage := by
    obtain ⟨_, _, hp⟩ := h.stage
    obtain ⟨q, b, hq⟩ := k.stage
    exact ⟨q, b, by rw [hq, hp]⟩
  others := fun n hn => (k.others n (by rw [h.uid]; exact hn)).trans (h.others n hn)

theorem Kept.onCur (s : State) (f : Task → Task) : Kept s (s.onCur f) where
  mem := by simp
  empties := by simp
  slices := by simp
  tillers := by simp
  plots := by simp
  dies := by simp
  slots := by simp
  fab := by simp
  mgmt := by simp
  reports := by simp
  probes := by simp
  held := by simp
  agenda := by simp
  cycle := by simp
  fresh := by simp
  stage := ⟨s.stage.paid, s.stage.ahead, by simp⟩
  others := fun n hn => State.task?_onTask_ne s hn f

theorem Kept.pay (s : State) (bi bm : Nat) : Kept s (s.pay bi bm) where
  mem := by simp
  empties := by simp
  slices := by simp
  tillers := by simp
  plots := by simp
  dies := by simp
  slots := by simp
  fab := by simp
  mgmt := by simp
  reports := by simp
  probes := by simp
  held := by simp
  agenda := by simp
  cycle := by simp
  fresh := by simp
  stage := ⟨_, _, by simp only [State.pay, State.onCur_stage]; rfl⟩
  others := fun n hn => State.task?_onTask_ne s hn _

theorem Kept.readReg {s t : State} {n : Nat} {a : Arg} (h : s.readReg n = .ok (a, t)) : Kept s t := by
  unfold State.readReg at h
  dsimp only at h
  split at h
  · split at h
    · exact absurd h (by simp)
    · split at h
      · exact absurd h (by simp)
      · split at h
        · exact absurd h (by simp)
        · simp only [Except.ok.injEq, Prod.mk.injEq] at h
          rw [← h.2]; exact Kept.onCur s _
  · split at h
    · split at h
      · exact absurd h (by simp)
      · split at h
        · exact absurd h (by simp)
        · split at h
          · exact absurd h (by simp)
          · exact absurd h (by simp)
          · simp only [Except.ok.injEq, Prod.mk.injEq] at h
            rw [← h.2]; exact (Kept.onCur s _).trans (Kept.pay _ _ _)
    · simp only [Except.ok.injEq, Prod.mk.injEq] at h
      rw [← h.2]; exact Kept.refl s

theorem Kept.readField {s t : State} {x : Syl} {j : Nat} {f : Kind} {a : Arg} (h : s.readField x j f = .ok (a, t)) :
    Kept s t := by
  unfold State.readField at h
  split at h
  · split at h
    · simp only [Except.ok.injEq, Prod.mk.injEq] at h
      rw [← h.2]; exact Kept.refl s
    · exact Kept.readReg h
  · simp only [Except.ok.injEq, Prod.mk.injEq] at h
    rw [← h.2]; exact Kept.refl s

/-- Reading the operands of a syllable changes its task and what its bundle has paid, nothing else. -/
theorem Kept.readArgs {s t : State} {x : Syl} {ks : List Kind} {g : Args} (h : s.readArgs x ks = .ok (g, t)) :
    Kept s t := by
  simp only [State.readArgs, bind, Except.bind] at h
  split at h
  · exact absurd h (by simp)
  · rename_i a ha
    split at h
    · exact absurd h (by simp)
    · rename_i b hb
      split at h
      · exact absurd h (by simp)
      · rename_i c hc
        split at h
        · exact absurd h (by simp)
        · rename_i d hd
          split at h
          · exact absurd h (by simp)
          · rename_i e he
            simp only [Except.ok.injEq, Prod.mk.injEq] at h
            rw [← h.2]
            exact ((((Kept.readField (a := a.1) (t := a.2) ha).trans (Kept.readField (a := b.1) (t := b.2) hb)).trans
              (Kept.readField (a := c.1) (t := c.2) hc)).trans (Kept.readField (a := d.1) (t := d.2) hd)).trans
              (Kept.readField (a := e.1) (t := e.2) he)

/-! ## The frame of a syllable -/

theorem Ready.kept {c : Cls} {opc : Nat} {x : Syl} {g : Args} {s s1 : State} (h : Ready c opc x g s s1) : Kept s s1 :=
  Kept.readArgs h.operands

theorem Ready.regs {c : Cls} {opc : Nat} {x : Syl} {g : Args} {s s1 : State} (h : Ready c opc x g s s1) :
    s1.stage.regs = s.stage.regs := by
  obtain ⟨p, a, hp⟩ := h.kept.stage; rw [hp]

/-- A ready syllable that waits for nothing of its own and whose act succeeds takes its effect. -/
theorem Ready.units {c : Cls} {opc : Nat} {x : Syl} {g : Args} {s s1 s2 : State} (h : Ready c opc x g s s1)
    {wait : Args → State → Option Stop} {units : Args → State → Nat × Nat} {act : Args → State → Except Stop State}
    (hw : s.stage.checked = true ∨ wait g s = none)
    (ha : act g (s1.pay (units g s1).1 (units g s1).2) = .ok s2) :
    runUnits c opc x wait units act s = .next (s2.commit x (wordOf opc x)) := by
  obtain ⟨t, ht⟩ := Option.ne_none_iff_exists'.mp h.onStage
  have hcur : s.cur = t := by simp [State.cur, ht]
  have hops := h.operands
  unfold runUnits
  simp only [ht, h.guard, Bool.not_true, Bool.false_eq_true, if_false]
  have hcheck : ∃ w, s.checkSlot t c opc x = .ok w := by
    unfold State.checkSlot
    rcases h.fits with ⟨hc, hd⟩ | ⟨hc, w, hw⟩
    · exact ⟨Need.zero, by rw [if_pos hc, if_neg hd]⟩
    · exact ⟨w, by rw [if_neg (by simp [hc]), ← hcur, hw]⟩
  obtain ⟨w, hw'⟩ := hcheck
  have hwait : (if s.stage.checked then none else wait g s) = none := by
    rcases hw with hc | hn
    · rw [if_pos hc]
    · by_cases hc : s.stage.checked = true
      · rw [if_pos hc]
      · rw [if_neg hc, hn]
  rw [hw']
  simp only [hops, hwait, ha, wordOf]

theorem Ready.run {c : Cls} {opc : Nat} {x : Syl} {g : Args} {s s1 s2 : State} (h : Ready c opc x g s s1)
    {act : Args → State → Except Stop State} (ha : act g (s1.charged c opc) = .ok s2) :
    run c opc x plain act s = .next (s2.commit x (wordOf opc x)) :=
  h.units (.inr rfl) ha

end Sys2Proof.Machine
end

