-- ==== Sys2Proof/Laws/Memory.lean ====
section
/-! SUPPORT. Physical memory: a write is read back, leaves every other byte alone, and keeps the canonical form. -/

namespace Sys2Proof.Machine

@[simp] theorem Memory.get_nil (a : Nat) : Memory.get [] a = 0 := rfl

theorem Memory.get_cons (c : Nat) (d : Byte) (m : List Host.Cell) (a : Nat) :
    Memory.get ((c, d) :: m) a = if a = c then d else Memory.get m a := by
  by_cases h : a = c
  · subst h; simp [Memory.get]
  · have : (c == a) = false := by simp [Ne.symm h]
    simp [Memory.get, this, h]

/-- The head of a canonical memory lies below every other address. -/
theorem Memory.wf_tail {c : Host.Cell} {m : List Host.Cell} (h : Memory.wf (c :: m) = true) : Memory.wf m = true := by
  obtain ⟨a, b⟩ := c
  cases m with
  | nil => rfl
  | cons d m => obtain ⟨e, f⟩ := d; simp only [Memory.wf, Bool.and_eq_true] at h; exact h.2

theorem Memory.wf_head_ne {c : Host.Cell} {m : List Host.Cell} (h : Memory.wf (c :: m) = true) : c.2 ≠ 0 := by
  obtain ⟨a, b⟩ := c
  cases m with
  | nil => simpa [Memory.wf] using h
  | cons d m => obtain ⟨e, f⟩ := d; simp only [Memory.wf, Bool.and_eq_true, bne_iff_ne] at h; exact h.1.1

/-- Every address of a list lies above a bound. -/
def Memory.above (a : Nat) (m : List Host.Cell) : Prop := ∀ c ∈ m, a < c.1

theorem Memory.wf_above {a : Nat} {b : Byte} {m : List Host.Cell} (h : Memory.wf ((a, b) :: m) = true) :
    Memory.above a m := by
  induction m generalizing a b with
  | nil => intro c hc; simp at hc
  | cons d m ih =>
    obtain ⟨e, f⟩ := d
    have h2 := Memory.wf_tail h
    have h1 : a < e := by simp only [Memory.wf, Bool.and_eq_true, decide_eq_true_eq] at h; exact h.1.2
    intro c hc
    rcases List.mem_cons.mp hc with rfl | hc
    · exact h1
    · exact Nat.lt_trans h1 (ih h2 c hc)

theorem Memory.wf_cons_iff {a : Nat} {b : Byte} {m : List Host.Cell} :
    Memory.wf ((a, b) :: m) = true ↔ b ≠ 0 ∧ Memory.above a m ∧ Memory.wf m = true := by
  constructor
  · intro h
    exact ⟨Memory.wf_head_ne h, Memory.wf_above h, Memory.wf_tail h⟩
  · rintro ⟨h1, h2, h3⟩
    cases m with
    | nil => simpa [Memory.wf] using h1
    | cons d m =>
      obtain ⟨e, f⟩ := d
      have := h2 (e, f) (by simp)
      simp only [Memory.wf, Bool.and_eq_true, bne_iff_ne, decide_eq_true_eq]
      exact ⟨⟨h1, this⟩, h3⟩

theorem Memory.get_above {a : Nat} {m : List Host.Cell} (h : Memory.above a m) : Memory.get m a = 0 := by
  induction m with
  | nil => rfl
  | cons c m ih =>
    obtain ⟨e, f⟩ := c
    have h1 := h (e, f) (by simp)
    rw [Memory.get_cons, if_neg (by simp at h1; omega), ih (fun x hx => h x (by simp [hx]))]

theorem Memory.above_put {a x : Nat} {b : Byte} {m : List Host.Cell} (h : Memory.above x m) (hx : x < a) :
    Memory.above x (Memory.put m a b) := by
  induction m with
  | nil =>
    intro c hc
    by_cases hb : b = 0
    · simp [Memory.put, hb] at hc
    · rw [Memory.put, if_neg hb, List.mem_singleton] at hc; subst hc; exact hx
  | cons d m ih =>
    obtain ⟨e, f⟩ := d
    have hm : Memory.above x m := fun c hc => h c (by simp [hc])
    have he : x < e := h (e, f) (by simp)
    intro c hc
    unfold Memory.put at hc
    split at hc
    · split at hc
      · exact h c hc
      · rcases List.mem_cons.mp hc with rfl | hc
        · exact hx
        · exact h c hc
    · split at hc
      · split at hc
        · exact hm c hc
        · rcases List.mem_cons.mp hc with rfl | hc
          · exact hx
          · exact hm c hc
      · rcases List.mem_cons.mp hc with rfl | hc
        · exact he
        · exact ih hm c hc

/-- A write keeps the canonical form. -/
theorem Memory.wf_put {m : List Host.Cell} (h : Memory.wf m = true) (a : Nat) (b : Byte) :
    Memory.wf (Memory.put m a b) = true := by
  induction m with
  | nil =>
    by_cases hb : b = 0
    · simp [Memory.put, hb, Memory.wf]
    · rw [Memory.put, if_neg hb]; simpa [Memory.wf] using hb
  | cons d m ih =>
    obtain ⟨e, f⟩ := d
    obtain ⟨h1, h2, h3⟩ := Memory.wf_cons_iff.mp h
    unfold Memory.put
    split
    · split
      · exact h
      · refine Memory.wf_cons_iff.mpr ⟨by assumption, ?_, h⟩
        intro c hc
        rcases List.mem_cons.mp hc with rfl | hc
        · assumption
        · exact Nat.lt_trans (by assumption) (h2 c hc)
    · split
      · split
        · exact h3
        · rename_i hae _; subst hae; exact Memory.wf_cons_iff.mpr ⟨by assumption, h2, h3⟩
      · exact Memory.wf_cons_iff.mpr ⟨h1, Memory.above_put h2 (by omega), ih h3⟩

/-- A byte written is read back, and every other byte reads as before. -/
theorem Memory.get_put {m : List Host.Cell} (h : Memory.wf m = true) (a x : Nat) (b : Byte) :
    Memory.get (Memory.put m a b) x = if x = a then b else Memory.get m x := by
  induction m with
  | nil =>
    by_cases hb : b = 0
    · simp [Memory.put, hb]
    · rw [Memory.put, if_neg hb, Memory.get_cons]
  | cons d m ih =>
    obtain ⟨e, f⟩ := d
    obtain ⟨h1, h2, h3⟩ := Memory.wf_cons_iff.mp h
    unfold Memory.put
    split
    · rename_i hlt
      have habove : Memory.above a ((e, f) :: m) := by
        intro c hc
        rcases List.mem_cons.mp hc with rfl | hc
        · exact hlt
        · exact Nat.lt_trans hlt (h2 c hc)
      split
      · rename_i hb
        split
        · rename_i hx; subst hx; rw [Memory.get_above habove, hb]
        · rfl
      · rw [Memory.get_cons]
    · split
      · rename_i hae; subst hae
        split
        · rename_i hb
          by_cases hx : x = a
          · subst hx; rw [if_pos rfl, Memory.get_above h2, hb]
          · rw [if_neg hx, Memory.get_cons, if_neg hx]
        · rw [Memory.get_cons, Memory.get_cons]
          by_cases hx : x = a <;> simp [hx]
      · rename_i hae
        rw [Memory.get_cons, Memory.get_cons, ih h3]
        by_cases hx : x = e
        · subst hx; simp [show ¬ x = a by omega]
        · simp [hx]

/-- Bytes written keep the canonical form. -/
theorem Memory.wf_write {m : List Host.Cell} (h : Memory.wf m = true) (a : Nat) (bs : List Byte) :
    Memory.wf (Memory.write m a bs) = true := by
  induction bs generalizing m a with
  | nil => exact h
  | cons b bs ih => exact ih (Memory.wf_put h a b) (a + 1)

/-- Bytes written are read back; every byte outside reads as before. -/
theorem Memory.get_write {m : List Host.Cell} (h : Memory.wf m = true) (a x : Nat) (bs : List Byte) :
    Memory.get (Memory.write m a bs) x = if a ≤ x ∧ x < a + bs.length then bs.getD (x - a) 0 else Memory.get m x := by
  induction bs generalizing m a with
  | nil => rw [Memory.write, if_neg (by simp only [List.length_nil]; omega)]
  | cons b bs ih =>
    rw [Memory.write, ih (Memory.wf_put h a b), Memory.get_put h]
    by_cases h1 : a + 1 ≤ x ∧ x < a + 1 + bs.length
    · have h2 : a ≤ x ∧ x < a + (b :: bs).length := by simp; omega
      rw [if_pos h1, if_pos h2]
      have : x - a = (x - (a + 1)) + 1 := by omega
      rw [this]; simp
    · rw [if_neg h1]
      by_cases h3 : x = a
      · subst h3; simp
      · rw [if_neg h3, if_neg (by simp; omega)]

theorem Memory.above_filter {a : Nat} {m : List Host.Cell} (h : Memory.above a m) (f : Host.Cell → Bool) :
    Memory.above a (m.filter f) := fun c hc => h c (List.mem_filter.mp hc).1

/-- Entries taken out keep the canonical form. -/
theorem Memory.wf_filter {m : List Host.Cell} (h : Memory.wf m = true) (f : Host.Cell → Bool) :
    Memory.wf (m.filter f) = true := by
  induction m with
  | nil => rfl
  | cons d m ih =>
    obtain ⟨e, g⟩ := d
    obtain ⟨h1, h2, h3⟩ := Memory.wf_cons_iff.mp h
    rw [List.filter_cons]
    split
    · exact Memory.wf_cons_iff.mpr ⟨h1, Memory.above_filter h2 f, ih h3⟩
    · exact ih h3

/-- A range zeroed keeps the canonical form. -/
theorem Memory.wf_clear {m : List Host.Cell} (h : Memory.wf m = true) (a n : Nat) :
    Memory.wf (Memory.clear m a n) = true := Memory.wf_filter h _

/-- Equal memories are equal data: two canonical memories that read alike at every address are the same list. -/
theorem Memory.ext {m k : List Host.Cell} (hm : Memory.wf m = true) (hk : Memory.wf k = true)
    (h : ∀ a, Memory.get m a = Memory.get k a) : m = k := by
  induction m generalizing k with
  | nil =>
    cases k with
    | nil => rfl
    | cons d k =>
      obtain ⟨e, f⟩ := d
      have := h e
      rw [Memory.get_cons, if_pos rfl] at this
      exact absurd this.symm (Memory.wf_cons_iff.mp hk).1
  | cons c m ih =>
    obtain ⟨a, b⟩ := c
    obtain ⟨h1, h2, h3⟩ := Memory.wf_cons_iff.mp hm
    cases k with
    | nil =>
      have := h a
      rw [Memory.get_cons, if_pos rfl] at this
      exact absurd this h1
    | cons d k =>
      obtain ⟨e, f⟩ := d
      obtain ⟨k1, k2, k3⟩ := Memory.wf_cons_iff.mp hk
      have hae : a = e := by
        rcases Nat.lt_trichotomy a e with hlt | heq | hgt
        · have h4 := h a
          have h5 : Memory.above a ((e, f) :: k) := by
            intro c hc
            rcases List.mem_cons.mp hc with rfl | hc
            · exact hlt
            · exact Nat.lt_trans hlt (k2 c hc)
          rw [Memory.get_cons, if_pos rfl, Memory.get_above h5] at h4
          exact absurd h4 h1
        · exact heq
        · have h4 := h e
          have h5 : Memory.above e ((a, b) :: m) := by
            intro c hc
            rcases List.mem_cons.mp hc with rfl | hc
            · exact hgt
            · exact Nat.lt_trans hgt (h2 c hc)
          rw [Memory.get_above h5, Memory.get_cons, if_pos rfl] at h4
          exact absurd h4.symm k1
      subst hae
      have hbf := h a
      rw [Memory.get_cons, Memory.get_cons, if_pos rfl, if_pos rfl] at hbf
      subst hbf
      congr 1
      apply ih h3 k3
      intro x
      by_cases hx : x = a
      · subst hx; rw [Memory.get_above h2, Memory.get_above k2]
      · have := h x
        rwa [Memory.get_cons, Memory.get_cons, if_neg hx, if_neg hx] at this

/-! ## The machine's stores -/

theorem State.store_inv {s : State} (h : s.Inv) (a : Nat) (bs : List Byte) : (s.store a bs).Inv :=
  Memory.wf_write h a bs

/-- What a store leaves: its own bytes where it wrote, every other byte as before. -/
theorem State.store_get {s : State} (h : s.Inv) (a x : Nat) (bs : List Byte) :
    Memory.get (s.store a bs).mem x = if a ≤ x ∧ x < a + bs.length then bs.getD (x - a) 0 else Memory.get s.mem x :=
  Memory.get_write h a x bs

theorem Memory.read_length (m : List Host.Cell) (a n : Nat) : (Memory.read m a n).length = n := by
  induction n generalizing a with
  | zero => rfl
  | succ n ih => simp [Memory.read, ih]

theorem Memory.read_getD (m : List Host.Cell) (a n i : Nat) (h : i < n) :
    (Memory.read m a n).getD i 0 = Memory.get m (a + i) := by
  induction n generalizing a i with
  | zero => omega
  | succ n ih =>
    cases i with
    | zero => simp [Memory.read]
    | succ i =>
      have := ih (a + 1) i (by omega)
      simp only [Memory.read, List.getD_cons_succ]
      rw [this]; congr 1; omega

/-- Two memories that read alike over a range give the same bytes. -/
theorem Memory.read_congr {m k : List Host.Cell} {a n : Nat} (h : ∀ i, i < n → Memory.get m (a + i) = Memory.get k (a + i)) :
    Memory.read m a n = Memory.read k a n := by
  induction n generalizing a with
  | zero => rfl
  | succ n ih =>
    have h0 := h 0 (by omega)
    rw [Nat.add_zero] at h0
    simp only [Memory.read, h0]
    rw [ih (fun i hi => by have := h (i + 1) (by omega); rwa [show a + (i + 1) = a + 1 + i by omega] at this)]

/-- A number is read back from its bytes, up to their count (R35). -/
theorem leNat_toLe (n x : Nat) : leNat (toLe n x) = x % 256 ^ n := by
  induction n generalizing x with
  | zero => simp [toLe, leNat, Nat.mod_one]
  | succ n ih =>
    simp only [toLe, leNat, ih, BitVec.toNat_ofNat]
    rw [show 256 ^ (n + 1) = 256 * 256 ^ n by rw [Nat.pow_succ, Nat.mul_comm], Nat.mod_mul]

theorem toLe_length (n x : Nat) : (toLe n x).length = n := by
  induction n generalizing x with
  | zero => rfl
  | succ n ih => simp [toLe, ih]

/-- A store outside a range leaves its bytes. -/
theorem State.bytes_store_apart {s : State} (h : s.Inv) {a b n : Nat} {bs : List Byte} (hd : b + n ≤ a ∨ a + bs.length ≤ b) :
    (s.store a bs).bytes b n = s.bytes b n := by
  refine Memory.read_congr (fun i hi => ?_)
  rw [State.store_get h, if_neg (by omega)]

/-- The bytes stored are read back. -/
theorem State.bytes_store {s : State} (h : s.Inv) (a : Nat) (bs : List Byte) : (s.store a bs).bytes a bs.length = bs := by
  refine List.ext_getElem (Memory.read_length _ _ _) (fun i h1 h2 => ?_)
  have := Memory.read_getD (s.store a bs).mem a bs.length i h2
  rw [State.store_get h, if_pos (by omega), Nat.add_sub_cancel_left] at this
  have h3 : i < (Memory.read (s.store a bs).mem a bs.length).length := h1
  rw [List.getD_eq_getElem?_getD, List.getD_eq_getElem?_getD, List.getElem?_eq_getElem h3, List.getElem?_eq_getElem h2,
    Option.getD_some, Option.getD_some] at this
  exact this

/-- CHECK covers no byte of itself (R335). -/
theorem State.imageCheck_store {s : State} (h : s.Inv) (a : Nat) (bs : List Byte) :
    (s.store (a + 0x5F00) bs).imageCheck a = s.imageCheck a := by
  simp only [State.imageCheck, State.bytes_store_apart h (a := a + 0x5F00) (bs := bs) (b := a + 0x150) (n := 0x1730) (.inl (by omega)),
    State.bytes_store_apart h (a := a + 0x5F00) (bs := bs) (b := a + 0x3A80) (n := 0x2480) (.inl (by omega))]

/-- A sealed image matches its CHECK. -/
theorem State.imageCheck_seal {s : State} (h : s.Inv) (a : Nat) :
    (s.sealImage a).imageCheck a = BitVec.ofNat 32 (leNat ((s.sealImage a).bytes (a + 0x5F00) 4)) := by
  have hb := State.bytes_store h (a + 0x5F00) (toLe 4 (s.imageCheck a).toNat)
  rw [toLe_length] at hb
  simp only [State.sealImage, State.imageCheck_store h, hb, leNat_toLe]
  apply BitVec.eq_of_toNat_eq
  simp only [BitVec.toNat_ofNat]
  have := (s.imageCheck a).isLt
  omega

end Sys2Proof.Machine
end

