-- ==== Sys2Proof/Tests/Slice0.lean ====
section
/-! SUPPORT. Small tests: words of the specification's encodings, ill-formed terms, one step of each family, and for each
statement a state that meets its hypotheses. -/

namespace Sys2Proof.Tests

set_option Elab.async false

open Sys2Proof Sys2Proof.Machine

/-! ## A small machine -/

/-- A syllable with the fields A to E given and every other field zero. -/
def y (a b c d e : BitVec 7) : Syl := ⟨false, 0, false, 0, false, 0, false, 0, 0, e, d, c, b, a⟩

/-- Registers: s1 an aligned address, s2 one in a sync page, s3 = 1, s4 = 8, s5 far, s6 a shape of one element, s7 a token of
an exit; v1 to v3 of tag FP32, v4 INT32, v5 INT8, v6 UINT16, v7 pairs, v8 BF16. -/
def regs0 : Regs :=
  { Regs.zero with
    s := Vector.ofFn (fun (i : Fin 64) =>
      [0, 0x1000, 0x40000000, 1, 8, 0x20000000, 0x202001, 0x8000000000000000].getD i.val 0)
    vt := Vector.ofFn (fun (i : Fin 64) => [0, 31, 31, 31, 29, 22, 34, 36, 1].getD i.val 0) }

/-- A lease of the Acre with its operands bound. -/
def lease0 : Lease where
  holder := .task 0
  prio := 0
  ops := { OperandState.zero with av := true, bv := true, ad := 1, bd := 1 }
  cmds := []
  err := none
  releasing := false
  pending := false
  token := none

/-- The one task: context 0 at PL 2, two tiles. -/
def task0 : Task :=
  { fetchTask with
    regs := regs0
    csr := { fetchTask.csr with live := 1 }
    job := { fetchTask.job with tiles := [0, 1], issueTags := [31, 31], passed := true, slot := 1, grid := 1 } }

/-- A bound grid of four groups with id 1. -/
def slot1 : Slot := (((Slot.zero.put 0 63 1 1).put 0 60 3 3).put 1 0 32 1).put 3 0 40 4

/-- Virtual 0 and 1 GiB mapped on HBM4E, the second a sync page; a plane with a kernel, its schedule and fragments 0 and 255;
a full map, a lease, a grid, a directory entry; and a syllable of `task0` on the stage. -/
def demo : State :=
  let s := (((((State.reset.store 0x100000 (toLe 8 0x200001)).store 0x200000 (toLe 8 0x40000013)).store 0x200008
    (toLe 8 0x80000083)).setReg 0x130000 0x100000).setReg 0x420000 0x8000000000000000)
  { s with
    tasks := [(0, task0)]
    slots := [(1, slot1)]
    tillers := [(0, { Tiller.zero with maps := [(31, { CMap.zero with owner := some 0, bits := BitVec.allOnes 512 })] })]
    plots := [(0, { Plot.zero with
      leases := [(0, lease0)]
      active := ⟨true, [(0x106, 1), (0x107, 0x80), (0x4103F, 0x80), (0x43207, 0x80), (0x439FF, 0x80)]⟩ })]
    stage := { Stage.zero with
      header := ⟨0, 0, false, 0x80⟩
      dirs := [(0x420000, 0x8000000000000000)]
      regs := regs0
      csr := task0.csr } }

/-- The same in the handler. -/
def demoH : State := demo.onCur (fun t => { t with flow := { t.flow with inHandler := true } })

/-- A syllable ready on `s` (R57, R61, R64) whose operands, and the machine that their reading leaves, pass `k`. -/
def meets (c : Cls) (opc : Nat) (x : Syl) (s : State) (k : Args → State → Bool) : Bool :=
  (s.task? s.stage.uid).isSome && s.stage.regs.guard x && !s.stage.checked &&
    (s.cur.issueCheck s.stage.marked c opc (usedKinds c opc x) x Need.zero).toOption.isSome &&
    match s.readArgs x (usedKinds c opc x) with
    | .ok (g, s1) => k g s1
    | .error _ => false

/-- An instruction that is well formed, ready and takes effect on `s` (a range form begins). -/
def runs (s : State) (i : Instr) : Bool :=
  i.wf && (match i.syllable with
    | some (c, opc, x) => meets c opc x s (fun _ _ => true)
    | none => false) && match exec i s with
    | .next t => t.stage.halt == .run || t.stage.range.isSome
    | _ => false

theorem ok_of_isSome {α ε : Type} {e : Except ε α} (h : e.toOption.isSome = true) : ∃ a, e = .ok a := by
  cases e <;> simp_all [Except.toOption]

theorem some_of_isSome {α : Type} {e : Option α} (h : e.isSome = true) : ∃ a, e = some a := Option.isSome_iff_exists.1 h

theorem ready_of_meets {c : Cls} {opc : Nat} {x : Syl} {s : State} {k : Args → State → Bool}
    (h : meets c opc x s k = true) : ∃ g s1, Ready c opc x g s s1 ∧ k g s1 = true := by
  simp only [meets, Bool.and_eq_true] at h
  obtain ⟨⟨⟨⟨ht, hg⟩, hc⟩, hi⟩, hk⟩ := h
  split at hk
  · rename_i g s1 he
    refine ⟨g, s1, ⟨?_, hg, .inr ⟨by simpa using hc, ok_of_isSome hi⟩, he⟩, hk⟩
    intro hn
    simp [hn] at ht
  · cases hk

/-- Every instruction that `runs` finds on `s` is a syllable ready there. -/
theorem ready_of_runs {s : State} {i : Instr} (h : runs s i = true) :
    ∃ c opc x g s1, i.syllable = some (c, opc, x) ∧ Ready c opc x g s s1 := by
  simp only [runs, Bool.and_eq_true] at h
  obtain ⟨⟨-, h⟩, -⟩ := h
  split at h
  · rename_i c opc x he
    obtain ⟨g, s1, hr, -⟩ := ready_of_meets h
    exact ⟨c, opc, x, g, s1, he, hr⟩
  · cases h

/-! ## Every syllable completes somewhere -/
/-- Syllables of the A class, part 0 (R71 to R76). -/
def runsA0 : List Instr := [
  .lea (y 10 1 0 0 3), .lda (y 0 1 3 0 0), .ldav (y 0 1 3 31 0), .sta (y 0 1 3 0 0), .mark (y 0 0 0 0 0),
  .pref (y 0 1 3 6 0), .ldr (y 10 1 3 0 0), .amoadd (y 10 1 0 2 3), .amoswap (y 10 1 0 2 3), .amocas (y 10 1 3 2 3),
  .amomin (y 10 1 0 31 3), .amomax (y 10 1 0 31 3), .amoand (y 10 1 0 2 3), .amoor (y 10 1 0 2 3),
  .amoxor (y 10 1 0 2 3), .ldfe (y 10 2 0 31 0), .stfe (y 0 2 0 31 3), .setf (y 0 2 0 0 0), .sete (y 0 2 0 0 0),
  .fence (y 10 0 0 0 0)]

theorem test_runs_A0 : runsA0.all (runs demo) = true := by decide +kernel

/-- Syllables of the A class, part 1 (R71 to R76). -/
def runsA1 : List Instr := [
  .fenceRel (y 10 0 0 0 0), .fenceAcq (y 10 0 0 0 0), .fwait (y 0 1 0 0 0), .shbind (y 10 1 0 0 3),
  .shbindw (y 10 1 0 0 3), .shunb (y 10 0 0 0 0), .binds (y 0 1 3 0 3), .unbs (y 0 0 0 0 0), .tlbinvPage (y 0 1 0 4 3),
  .tlbinvTenant (y 0 1 0 6 3), .tlbinvRange (y 0 1 0 9 3), .staV (y 0 1 3 7 0), .tlbinvAll (y 0 1 0 7 3)]

theorem test_runs_A1 : runsA1.all (runs demo) = true := by decide +kernel

/-- Syllables of the S class, part 0 (R71 to R76). -/
def runsS0 : List Instr := [
  .add (y 10 1 0 0 3), .sub (y 10 1 0 0 3), .mul (y 10 1 0 0 3), .mulh (y 10 1 0 0 3), .mulhu (y 10 1 0 0 3),
  .shadd (y 10 1 3 0 3), .sext (y 10 1 3 0 0), .zext (y 10 1 3 0 0), .min (y 10 1 0 0 3), .minu (y 10 1 0 0 3),
  .max (y 10 1 0 0 3), .maxu (y 10 1 0 0 3), .div (y 10 1 0 0 3), .divu (y 10 1 0 0 3), .rem (y 10 1 0 0 3),
  .remu (y 10 1 0 0 3), .and (y 10 1 0 0 3), .or (y 10 1 0 0 3), .xor (y 10 1 0 0 3), .andn (y 10 1 0 0 3)]

theorem test_runs_S0 : runsS0.all (runs demo) = true := by decide +kernel

/-- Syllables of the S class, part 1 (R71 to R76). -/
def runsS1 : List Instr := [
  .orn (y 10 1 0 0 3), .shl (y 10 1 0 0 3), .shr (y 10 1 0 0 3), .sar (y 10 1 0 0 3), .rol (y 10 1 0 0 3),
  .ror (y 10 1 0 0 3), .bext (y 10 1 3 31 0), .bins (y 10 1 3 31 3), .clz (y 10 1 0 0 0), .ctz (y 10 1 0 0 0),
  .popc (y 10 1 0 0 0), .mov (y 10 1 0 0 0), .li (y 10 0 0 0 3), .sel (y 10 1 3 0 3), .cmpeq (y 0 1 0 0 3),
  .cmpne (y 0 1 0 0 3), .cmplt (y 0 1 0 0 3), .cmpltu (y 0 1 0 0 3), .cmple (y 0 1 0 0 3), .cmpleu (y 0 1 0 0 3)]

theorem test_runs_S1 : runsS1.all (runs demo) = true := by decide +kernel

/-- Syllables of the S class, part 2 (R71 to R76). -/
def runsS2 : List Instr := [
  .pand (y 0 1 3 0 0), .por (y 0 1 3 0 0), .pxor (y 0 1 3 0 0), .pandn (y 0 1 3 0 0), .fadd (y 10 1 0 0 3),
  .fsub (y 10 1 0 0 3), .fmul (y 10 1 0 0 3), .ffma (y 10 1 3 0 3), .fmin (y 10 1 0 0 3), .fmax (y 10 1 0 0 3),
  .fcmpeq (y 0 1 0 0 3), .fcmplt (y 0 1 0 0 3), .fcmple (y 0 1 0 0 3), .fcvtfi (y 10 1 0 0 0), .fcvtif (y 10 1 0 0 0)]

theorem test_runs_S2 : runsS2.all (runs demo) = true := by decide +kernel

/-- Syllables of the V class, part 0 (R71 to R76). -/
def runsV0 : List Instr := [
  .vadd (y 74 65 3 0 3), .vsub (y 74 65 3 0 3), .vmul (y 74 65 3 0 3), .vdiv (y 74 65 3 0 3), .vmin (y 74 65 3 0 3),
  .vmax (y 74 65 3 0 3), .vfma (y 74 65 3 66 3), .vclamp (y 74 65 3 66 3), .vsqrt (y 74 65 3 0 0),
  .vabs (y 74 65 3 0 0), .vneg (y 74 65 3 0 0), .viadd (y 74 68 3 0 3), .visub (y 74 68 3 0 3), .vimul (y 74 68 3 0 3),
  .vsadd (y 74 68 3 0 3), .vssub (y 74 68 3 0 3), .vand (y 74 65 3 0 3), .vor (y 74 65 3 0 3), .vxor (y 74 65 3 0 3),
  .vandn (y 74 65 3 0 3)]

theorem test_runs_V0 : runsV0.all (runs demo) = true := by decide +kernel

/-- Syllables of the V class, part 1 (R71 to R76). -/
def runsV1 : List Instr := [
  .vshl (y 74 68 3 0 3), .vshr (y 74 68 3 0 3), .vsar (y 74 68 3 0 3), .vcmpeq (y 0 65 3 0 3), .vcmpne (y 0 65 3 0 3),
  .vcmplt (y 0 65 3 0 3), .vcmple (y 0 65 3 0 3), .vcmpun (y 0 65 3 0 3), .kand (y 0 1 3 0 0), .kor (y 0 1 3 0 0),
  .kxor (y 0 1 3 0 0), .knot (y 0 1 0 0 0), .kpopc (y 10 1 0 0 0), .vsel (y 74 65 3 0 3), .vmov (y 74 65 0 0 0),
  .vbcast (y 74 0 0 0 3), .vext (y 10 65 0 0 3), .vtag (y 74 65 0 31 0), .vcvt (y 74 65 3 31 0),
  .vquant (y 74 65 3 4 3)]

theorem test_runs_V1 : runsV1.all (runs demo) = true := by decide +kernel

/-- Syllables of the V class, part 2 (R71 to R76). -/
def runsV2 : List Instr := [
  .vamax (y 10 65 3 0 0), .vpair (y 74 65 0 0 3), .vsplit (y 74 71 0 0 0), .vredsum (y 10 65 3 0 0),
  .vredmax (y 10 65 3 0 0), .vredmin (y 10 65 3 0 0), .vscan (y 74 65 3 0 0), .vexp (y 74 65 3 0 0),
  .vlog (y 74 65 3 0 0), .vrcp (y 74 65 3 0 0), .vrsqrt (y 74 65 3 0 0), .vtanh (y 74 65 3 0 0),
  .vsilu (y 74 65 3 0 0), .vgelu (y 74 65 3 0 0), .vperm (y 74 65 0 0 70), .vrot (y 74 65 0 0 3),
  .vzip (y 74 65 0 0 67), .vunzip (y 74 65 0 0 67), .vcompress (y 74 65 3 31 0), .vexpand (y 74 65 3 0 0)]

theorem test_runs_V2 : runsV2.all (runs demo) = true := by decide +kernel

/-- Syllables of the V class, part 3 (R71 to R76). -/
def runsV3 : List Instr := [
  .vtopk (y 74 65 0 1 0), .vprune (y 74 65 3 4 67), .vtopkm (y 74 1 0 1 3), .vprunem (y 10 1 0 31 0),
  .vcmpm (y 74 1 0 0 3), .vredm (y 10 1 0 0 3), .vgathm (y 74 1 70 31 0)]

theorem test_runs_V3 : runsV3.all (runs demo) = true := by decide +kernel

/-- Syllables of the M class, part 0 (R71 to R76). -/
def runsM0 : List Instr := [
  .alease (y 10 0 0 0 0), .aleaseTry (y 10 0 0 1 0), .arel (y 0 1 0 0 0), .aidx (y 0 1 0 1 3), .abind (y 0 1 0 1 0),
  .ascl (y 0 1 0 0 0), .amul (y 0 1 0 0 3), .amac (y 0 1 0 0 3), .amulm (y 0 1 0 0 3), .amacm (y 0 1 0 0 3),
  .azero (y 0 1 0 0 0), .acvt (y 0 1 0 31 0), .amove (y 10 1 3 31 0), .astore (y 0 1 3 0 3), .apred (y 0 1 0 0 3),
  .await (y 0 1 0 0 0), .copy (y 0 1 3 31 3), .drill (y 0 1 0 31 3), .drw (y 0 1 0 31 3), .drain (y 0 0 0 31 0)]

theorem test_runs_M0 : runsM0.all (runs demo) = true := by decide +kernel

/-- Syllables of the M class, part 1 (R71 to R76). -/
def runsM1 : List Instr := [
  .drainAll (y 0 0 0 66 0), .coll (y 10 1 0 0 3), .collTopk (y 10 1 0 0 3), .a2a (y 10 1 0 0 3),
  .sample (y 10 1 0 0 3), .glean (y 0 1 3 0 0)]

theorem test_runs_M1 : runsM1.all (runs demo) = true := by decide +kernel

/-- Syllables of the C class, part 0 (R71 to R76). -/
def runsC0 : List Instr := [
  .br (y 0 0 0 0 3), .bri (y 0 1 0 0 0), .call (y 10 0 0 0 3), .ret (y 0 1 0 0 0), .loop (y 0 1 0 0 3),
  .bar (y 0 0 0 0 0), .phase (y 0 0 0 0 0), .endTask (y 0 0 0 0 0), .csrr (y 10 0 0 0 3), .csrw (y 0 1 0 0 3),
  .csrs (y 0 1 0 0 3), .csrc (y 0 1 0 0 3), .jtab (y 0 0 0 0 0), .trap (y 0 0 0 0 3), .yield (y 0 0 0 0 0),
  .synct (y 0 2 0 0 0), .launch (y 0 1 3 0 3), .grow (y 0 3 0 0 3), .waitc (y 0 2 0 0 3), .sigc (y 0 2 0 0 3)]

theorem test_runs_C0 : runsC0.all (runs demo) = true := by decide +kernel

/-- Syllables of the C class, part 1 (R71 to R76). -/
def runsC1 : List Instr := [
  .swap (y 0 0 0 31 0), .bget (y 10 0 0 0 0), .bgive (y 0 1 0 0 3), .topup (y 0 1 0 0 3), .cwait (y 0 31 0 0 3),
  .ctest (y 0 1 0 0 3), .rcupdF32 (y 0 1 3 0 0), .rcupdLd (y 0 1 3 64 0), .rcupdBf16 (y 0 1 3 32 0),
  .rcupdSt (y 0 1 3 96 0), .harrow (y 10 1 3 0 0), .furrow (y 0 1 3 31 0), .xnote (y 0 1 3 0 0), .route (y 10 1 3 0 0),
  .rdcnt (y 10 0 0 0 3), .loopl (y 0 1 0 0 3), .jtabRes (y 0 7 0 1 0)]

theorem test_runs_C1 : runsC1.all (runs demo) = true := by decide +kernel

/-- `rett` completes in the handler. -/
theorem test_runs_rett : runs demoH (.rett (y 0 0 0 0 0)) = true := by decide +kernel

/-! ## Words of the specification's encodings -/

/-- `sub` under p1 with a literal, s9 left empty (05, under R90). -/
theorem test_decode_sub : (decodeSyl .S 0x0084_0410_0000_0487).toOption = some (.sub ⟨false, 1, false, 0, false, 0, true, 0, 2, 0, 0, 0, 9, 7⟩) := by decide +kernel
/-- `amoadd.d.pkg s9, s2, s3` (R201). -/
theorem test_decode_amoadd : (decodeSyl .A 0x0800_0000_3360_0109).toOption = some (.amoadd (y 9 2 0 27 3)) := by decide +kernel
/-- `fence.rel.pkg s25`: OPC 0x041, D = 3, A = 25 (R205). -/
theorem test_decode_fence : (decodeSyl .A 0x1040_0000_0060_0019).toOption = some (.fenceRel (y 25 0 0 3 0)) := by decide +kernel
/-- A 256-bit `vredsum` of v55 into s23 (R133). -/
theorem test_decode_vredsum : (decodeSyl .V 0x1800_0000_0000_3B97).toOption = some (.vredsum (y 23 119 0 0 0)) := by decide +kernel
/-- `vredm` over s20 and s21 into s12 with W = 0b10 (R145). -/
theorem test_decode_vredm : (decodeSyl .V 0x28C0_0200_0005_4A0C).toOption = some (.vredm ⟨false, 0, false, 0, false, 0, false, 2, 0, 0, 0, 21, 20, 12⟩) := by decide +kernel
/-- `alease.try`: OPC 0x001, D = 1, A = 24 (07). -/
theorem test_decode_alease : (decodeSyl .M 0x0040_0000_0020_0018).toOption = some (.aleaseTry (y 24 0 0 1 0)) := by decide +kernel
/-- `copy`: OPC 0x040, LIT, D = 3, C = 28, B = 27 (11). -/
theorem test_decode_copy : (decodeSyl .M 0x1000_0400_0067_0D80).toOption = some (.copy ⟨false, 0, false, 0, false, 0, true, 0, 0, 0, 3, 28, 27, 0⟩) := by decide +kernel
/-- `drill`: OPC 0x041, D = 7, B = 9 (R245). -/
theorem test_decode_drill : (decodeSyl .M 0x1040_0000_00E0_0480).toOption = some (.drill (y 0 9 0 7 0)) := by decide +kernel
/-- `cwait`: OPC 0x040 of the C class, LIT, B = 3 (11). -/
theorem test_decode_cwait : (decodeSyl .C 0x1000_0400_0000_0180).toOption = some (.cwait ⟨false, 0, false, 0, false, 0, true, 0, 0, 0, 0, 0, 3, 0⟩) := by decide +kernel
/-- `rcupd.f32`: OPC 0x048, C = 5, B = 4 (12). -/
theorem test_decode_rcupd : (decodeSyl .C 0x1200_0000_0001_4200).toOption = some (.rcupdF32 (y 0 4 5 0 0)) := by decide +kernel
/-- `harrow`: OPC 0x049, B = 3, A = 6 (12). -/
theorem test_decode_harrow : (decodeSyl .C 0x1240_0000_0000_0186).toOption = some (.harrow (y 6 3 0 0 0)) := by decide +kernel
/-- `bgive.bi`: OPC 0x039, LIT, B = 30 (13). -/
theorem test_decode_bgive : (decodeSyl .C 0x0E40_0400_0000_0F00).toOption = some (.bgive ⟨false, 0, false, 0, false, 0, true, 0, 0, 0, 0, 0, 30, 0⟩) := by decide +kernel
/-- `launch`: OPC 0x030, LIT, B = 29 (14). -/
theorem test_decode_launch : (decodeSyl .C 0x0C00_0400_0000_0E80).toOption = some (.launch ⟨false, 0, false, 0, false, 0, true, 0, 0, 0, 0, 0, 29, 0⟩) := by decide +kernel
/-- `waitc`: OPC 0x032, LIT, B = 31 (14). -/
theorem test_decode_waitc : (decodeSyl .C 0x0C80_0400_0000_0F80).toOption = some (.waitc ⟨false, 0, false, 0, false, 0, true, 0, 0, 0, 0, 0, 31, 0⟩) := by decide +kernel
/-- `synct p3, s12`: OPC 0x02B, B = 12, A = 3 (R209). -/
theorem test_decode_synct : (decodeSyl .C 0x0AC0_0000_0000_0603).toOption = some (.synct (y 3 12 0 0 0)) := by decide +kernel
/-- `rett` and `end` with every field zero (R76). -/
theorem test_decode_rett_end : (decodeSyl .C 0x0A40_0000_0000_0000).toOption = some (.rett (y 0 0 0 0 0)) ∧
    (decodeSyl .C 0x0480_0000_0000_0000).toOption = some (.endTask (y 0 0 0 0 0)) := by decide +kernel

/-! ## Ill-formed terms and words (R53, R62, R70) -/

/-- Why a word is refused. -/
def why {α : Type} (r : Except Reject α) : Option Reject :=
  match r with
  | .error e => some e
  | .ok _ => none

theorem test_ill_opcode : (Instr.sta (y 0 1 0 7 0)).wf = false ∧ why (decodeSyl .S 0xFFC0_0000_0000_0000) = some .opcode := by
  decide +kernel
theorem test_ill_hold : (Instr.bri { y 0 1 0 0 0 with hold := true }).wf = false ∧
    why (decodeSyl .C 0x00A0_0000_0000_0080) = some .hold := by decide +kernel
theorem test_ill_width : (Instr.vadd { y 64 65 0 0 66 with st := 3 }).wf = false ∧
    (Instr.vadd { y 64 65 0 0 66 with st := 2 }).wf = true := by decide +kernel
theorem test_ill_hint : (Instr.add { y 1 2 0 0 3 with ch := 1 }).wf = false ∧
    why (decodeSyl .S 0x0040_0800_3000_0101) = some .hint := by decide +kernel
theorem test_ill_literal : (Instr.clz { y 1 2 0 0 0 with lit := true }).wf = false ∧
    (Instr.add { y 1 2 0 0 3 with lit := true }).wf = false ∧ (Instr.add { y 1 2 0 0 0 with lit := true }).wf = true := by
  decide +kernel
theorem test_ill_emptyMark : (Instr.add { y 1 2 0 0 3 with fem := 1 }).wf = false ∧
    (Instr.add { y 1 2 0 0 3 with fem := 18 }).wf = true := by decide +kernel
theorem test_ill_field : (Instr.add (y 55 2 0 0 3)).wf = false ∧ (Instr.add (y 54 2 0 0 3)).wf = true ∧
    (Instr.add (y 1 54 0 0 3)).wf = false := by decide +kernel
theorem test_ill_value : (Instr.shadd (y 1 2 8 0 3)).wf = false ∧ (Instr.shadd (y 1 2 7 0 3)).wf = true := by decide +kernel
theorem test_ill_header : why (decodeHeader 0x0000_0000_0000_1001) = some .header ∧ why (decodeHeader 0x0000_0000_0000_0A01) = some .header ∧
    (decodeHeader 0x0000_0005_0000_0801).toOption = some ⟨5, 4, false, 1⟩ := by decide +kernel

/-! ## One instruction, its result worked out by hand -/

/-- `demo` with the values of s10 to s12. -/
def with3 (a b c : Word) : State :=
  let r := ((regs0.setS 10 a).setS 11 b).setS 12 c
  { demo.onCur (fun t => { t with regs := r }) with stage := { demo.stage with regs := r } }

/-- The value that the last result started towards a register brings. -/
def result (i : Instr) (s : State) : Option Word :=
  match exec i s with
  | .next t => t.cur.flow.inflight.getLast?.map (fun l => low l.data)
  | _ => none

/-- The value on its way to an empty register, and its cycle (R95). -/
def promised (i : Instr) (s : State) : Option (Word × Nat) :=
  match exec i s with
  | .next t => t.cur.flow.producers.getLast?.map (fun p => (p.val, p.due))
  | _ => none

/-- The value that the last result started towards a `v` register brings. -/
def vresult (i : Instr) (s : State) : Option (Vec × Tag) :=
  match exec i s with
  | .next t => t.cur.flow.inflight.getLast?.map (fun l => (l.data, l.tag))
  | _ => none

/-- `demo` with the values of v1 and v2, of tag `g`. -/
def withV (g : Tag) (a b : Vec) : State :=
  let r := (regs0.setV 1 a g).setV 2 b g
  { demo.onCur (fun t => { t with regs := r }) with stage := { demo.stage with regs := r } }

/-- R94: sums wrap, `mulh` is signed, `sext` copies bit C upwards. -/
theorem test_arithmetic :
    result (.add (y 9 10 0 0 11)) (with3 0xFFFF_FFFF_FFFF_FFFF 2 0) = some 1 ∧
    result (.sub (y 9 10 0 0 11)) (with3 3 5 0) = some 0xFFFF_FFFF_FFFF_FFFE ∧
    result (.mulh (y 9 10 0 0 11)) (with3 0xFFFF_FFFF_FFFF_FFFF 2 0) = some 0xFFFF_FFFF_FFFF_FFFF ∧
    result (.mulhu (y 9 10 0 0 11)) (with3 0xFFFF_FFFF_FFFF_FFFF 2 0) = some 1 ∧
    result (.sext (y 9 10 7 0 0)) (with3 0x1280 0 0) = some 0xFFFF_FFFF_FFFF_FF80 ∧
    result (.zext (y 9 10 7 0 0)) (with3 0x1280 0 0) = some 0x80 := by decide +kernel

/-- R94: signed and unsigned minimum of −1 and 1. -/
theorem test_minmax :
    result (.min (y 9 10 0 0 11)) (with3 0xFFFF_FFFF_FFFF_FFFF 1 0) = some 0xFFFF_FFFF_FFFF_FFFF ∧
    result (.minu (y 9 10 0 0 11)) (with3 0xFFFF_FFFF_FFFF_FFFF 1 0) = some 1 ∧
    result (.max (y 9 10 0 0 11)) (with3 0xFFFF_FFFF_FFFF_FFFF 1 0) = some 1 ∧
    result (.maxu (y 9 10 0 0 11)) (with3 0xFFFF_FFFF_FFFF_FFFF 1 0) = some 0xFFFF_FFFF_FFFF_FFFF := by decide +kernel

/-- R96: the amount is the low six bits of operand E. -/
theorem test_shifts :
    result (.shl (y 9 10 0 0 11)) (with3 1 65 0) = some 2 ∧
    result (.shr (y 9 10 0 0 11)) (with3 0x8000_0000_0000_0000 127 0) = some 1 ∧
    result (.sar (y 9 10 0 0 11)) (with3 0x8000_0000_0000_0000 63 0) = some 0xFFFF_FFFF_FFFF_FFFF ∧
    result (.rol (y 9 10 0 0 11)) (with3 0x8000_0000_0000_0001 4 0) = some 0x18 ∧
    result (.ror (y 9 10 0 0 11)) (with3 0x18 4 0) = some 0x8000_0000_0000_0001 ∧
    result (.andn (y 9 10 0 0 11)) (with3 0xFF 0x0F 0) = some 0xF0 := by decide +kernel

/-- R97, R98: `bins s5, s3, 32, 6, =2` of the example of R262, a field taken out, and counts of zero. -/
theorem test_bits :
    result (.bins (y 9 10 32 6 11)) (with3 0x2000 2 0) = some 0x2_0000_2000 ∧
    result (.bext (y 9 10 32 6 0)) (with3 0x2_0000_2000 0 0) = some 2 ∧
    result (.clz (y 9 10 0 0 0)) (with3 0 0 0) = some 64 ∧ result (.ctz (y 9 10 0 0 0)) (with3 0x100 0 0) = some 8 ∧
    result (.popc (y 9 10 0 0 0)) (with3 0xF0F0 0 0) = some 8 := by decide +kernel

/-- The rows of R95's table: results and cycles to fill. -/
theorem test_division :
    promised (.div (y 9 10 0 0 11)) (with3 100 7 0) = some (14, 12) ∧
    promised (.rem (y 9 10 0 0 11)) (with3 100 7 0) = some (2, 12) ∧
    promised (.div (y 9 10 0 0 11)) (with3 (-7) 2 0) = some (-3, 11) ∧
    promised (.rem (y 9 10 0 0 11)) (with3 (-7) 2 0) = some (-1, 11) ∧
    promised (.rem (y 9 10 0 0 11)) (with3 7 (-2) 0) = some (1, 11) ∧
    promised (.div (y 9 10 0 0 11)) (with3 5 0 0) = some (0xFFFF_FFFF_FFFF_FFFF, 11) ∧
    promised (.remu (y 9 10 0 0 11)) (with3 5 0 0) = some (5, 11) ∧
    promised (.div (y 9 10 0 0 11)) (with3 0x8000_0000_0000_0000 (-1) 0) = some (0x8000_0000_0000_0000, 26) ∧
    promised (.rem (y 9 10 0 0 11)) (with3 0x8000_0000_0000_0000 (-1) 0) = some (0, 26) := by decide +kernel

/-- R102, R103: a tie goes to even, zeros of unlike sign are ordered, and NaN is canonical. -/
theorem test_float :
    result (.fadd (y 9 10 0 0 11)) (with3 0x3F800000 0x33800000 0) = some 0x3F800000 ∧
    result (.fadd (y 9 10 0 0 11)) (with3 0x3F800001 0x33800000 0) = some 0x3F800002 ∧
    result (.fmin (y 9 10 0 0 11)) (with3 0 0x80000000 0) = some 0x80000000 ∧
    result (.fmax (y 9 10 0 0 11)) (with3 0x80000000 0 0) = some 0 ∧
    result (.fmul (y 9 10 0 0 11)) (with3 0x7F800000 0 0) = some 0x7FC00000 ∧
    result (.ffma (y 9 10 12 0 11)) (with3 0x40000000 0x3F800000 0x40400000) = some 0x40E00000 := by decide +kernel

/-- R129, R121: FP32 lanes add with rounding, INT32 lanes wrap. -/
theorem test_vector_add :
    vresult (.vadd (y 74 65 0 0 66)) (withV 31 0x3F800000 0x40000000) = some (0x40400000, 31) ∧
    vresult (.viadd (y 74 65 0 0 66)) (withV 29 0x7FFFFFFF 1) = some (0x80000000, 29) := by decide +kernel

/-- The example of R262: rows 0 to 7 after block 2; the scores stand behind the plane's constant range. -/
def rowsDemo : State :=
  let s := demo.store 0x40010000
    ([0x3F000000, 0x40200000, 0x3FE00000, 0x41100000, 0x7FC00000, 0x40000000, 0, 0xBF800000].flatMap (toLe 4))
  let p := s.plot 0
  let q : Plane := ⟨true, [(0x43014, 0xC0), (0x43015, 0x3F), (0x43017, 0x40)]⟩
  let r := (regs0.setS 10 0x10000).setS 11 0x2_0000_2000
  let s1 := s.setPlot 0 { p with
    active := q
    rcw := ([8, 8, 8, 0x41000006, 8, 8, 0x3FC00009, 8] : List (BitVec 32)).zipIdx.map (fun e => (e.2, e.1)) }
  { s1.onCur (fun t => { t with regs := r }) with stage := { s1.stage with regs := r } }

theorem test_rcupd : (match exec (.rcupdF32 (y 0 10 11 0 0)) rowsDemo with
    | .next t => (List.range 8).map (fun r => Tab.getD (t.plot 0).rcw r 0)
    | _ => []) = [0x3F00000C, 0x4020000A, 0x3FE0000D, 0x41000006, 0x7FC0000C, 0x4000000A, 0x3FC0000C, 0xBF80000C] := by
  decide +kernel

/-- Its `harrow`: rows 0, 4, 6 and 7 are live. -/
theorem test_harrow : (match exec (.rcupdF32 (y 0 10 11 0 0)) rowsDemo with
    | .next t => (match exec (.harrow (y 9 11 0 0 0)) t with
      | .next u => ((List.range 4).map (fun i => Tab.getD (u.plot 0).furrow i 0), u.cur.csr.live)
      | _ => ([], 0))
    | _ => ([], 0)) = ([0, 4, 6, 7], 4) := by decide +kernel

/-- A bundle placed at the pc runs: the header of a lone `li s7, =5` in slot S0, PRESENT bit 1. -/
theorem test_step_li : (match step (State.reset.withFetchWord 128 0x1040_0400_0000_0007_0000_0005_0000_0002) with
    | .next t => (t.tasks.map (fun e => (e.2.pc, e.2.flow.inflight.map (fun l => (l.due, low l.data)), e.2.csr.bi.toNat)))
    | _ => []) = [(0x10, [(1, 5)], 2 ^ 48 - 2)] := by decide +kernel
/-! ## The hypotheses of the statements are met

The lists above meet `Ready` for every syllable (`ready_of_runs`). Each theorem below names its statement, and meets the
further hypotheses of clauses of it. -/

/-- `demo` with the task on the stage changed, and its registers the stage's. -/
def demoT (f : Task → Task) : State :=
  let s := demo.onCur f
  { s with stage := { s.stage with regs := s.cur.regs } }

/-- Whether a result can start towards an `s` register. -/
def startsS (c : Cls) (opc : Nat) (a : BitVec 7) (lat : Nat) (v : Word) (s : State) : Bool :=
  ((s.charged c opc).putS a lat v).toOption.isSome

theorem witness_ScalarOperations :
    meets .S 0x001 (y 10 1 0 0 3) demo (fun g s1 => g.b.w == 0x1000 && g.e.w == 1 && startsS .S 1 10 1 0x1001 s1) = true ∧
    meets .S 0x007 (y 0 1 63 0 0) demo (fun g s1 => g.b.w == 0x1000 && startsS .S 7 0 1 0x1000 s1) = true ∧
    meets .S 0x031 (y 10 1 32 32 3) demo (fun _ s1 => startsS .S 0x31 10 1 0x100001000 s1) = true := by decide +kernel

theorem witness_ScalarCounts :
    meets .S 0x032 (y 10 0 0 0 0) demo (fun g s1 => g.b.w == 0 && startsS .S 0x32 10 1 64 s1) = true ∧
    meets .S 0x034 (y 10 7 0 0 0) demo (fun g s1 => g.b.w == 0x8000000000000000 && startsS .S 0x34 10 1 1 s1) = true := by decide +kernel

theorem witness_ScalarPredicates :
    meets .S 0x052 (y 1 7 0 0 3) demo (fun g _ => decide (g.b.w.toInt < g.e.w.toInt)) = true ∧
    meets .S 0x053 (y 1 7 0 0 3) demo (fun g _ => decide (¬ g.b.w.toNat < g.e.w.toNat)) = true := by decide +kernel

/-- A float, and a division by zero of 0x1000, which has 13 significant bits. -/
theorem witness_ScalarFloatAndDivision :
    meets .S 0x089 (y 10 1 0 3 0) demo (fun _ s1 => startsS .S 0x89 10 4 0 s1) = true ∧
    meets .S 0x010 (y 10 1 0 0 0) demo (fun g _ => decide (g.e.w = 0 ∧ g.b.w.toInt.natAbs < 2 ^ 13 ∧ 2 ^ 12 ≤ g.b.w.toInt.natAbs)) = true := by decide +kernel

theorem witness_SyllableRoundTrip : (Instr.sub (y 7 9 0 0 0)).wf = true ∧
    encode (.sub (y 7 9 0 0 0)) = some (.S, 0x80_0000_0000_0487) := by decide +kernel

theorem witness_DecodedWordIsUnique : (decodeSyl .S 0x80_0000_0000_0487).toOption = some (.sub (y 7 9 0 0 0)) := by decide +kernel

theorem witness_HeadersAndWords : (⟨5, 4, false, 1⟩ : Header).lend.toNat ≤ 4 ∧ (0x8000_0000 : Word).getLsbD 31 = true ∧
    5 ≤ (0xA00 : Word).toNat / 2 ^ 9 % 8 ∧ (decodeHeader 0x0000_0005_0000_0801).toOption = some ⟨5, 4, false, 1⟩ := by decide +kernel

/-- A machine about to issue a bundle of `li s7, =5`. -/
def bundle : State := State.reset.withFetchWord 128 0x1040_0400_0000_0007_0000_0005_0000_0002

theorem ok_of_eq {α ε : Type} {e : Except ε α} {a : α} (h : e.toOption = some a) : e = .ok a := by
  cases e <;> simp_all [Except.toOption]

/-- The machine of `bundle` when its fetch begins. -/
def fetched : State := bundle.fetching 0 0 fetchTask []

theorem witness_StepRunsDecoded : Selects bundle 0 0 fetchTask [] ∧
    ∃ s3, Fetches fetched 0x0000_0005_0000_0002 [0x1040_0400_0000_0007] s3 ∧
      (decodeHeader 0x0000_0005_0000_0002).toOption = some ⟨5, 0, false, 2⟩ ∧
      visitsFrom ⟨5, 0, false, 2⟩ [0x1040_0400_0000_0007] s3.cur.flow.hold s3.cur.flow.resume = [(1, 0x1040_0400_0000_0007)] ∧
      s3.cur.slotInstr 1 0x1040_0400_0000_0007 = some (.li { y 7 0 0 0 0 with lit := true }) ∧
      (s3.shape ⟨5, 0, false, 2⟩ [(1, 0x1040_0400_0000_0007)]
        (visitsFrom ⟨5, 0, false, 2⟩ [0x1040_0400_0000_0007] s3.cur.flow.hold 0)).issueStop [(1, 0x1040_0400_0000_0007)] = none := by
  let a := (fetched.fetchHead fetched.cur fetched.cur.pc.toNat).toOption
  let b := a.bind (fun r => (State.fetchWords fetched.cur (presentSlots ((0x0000_0005_0000_0002 : Word).setWidth 8)).length
    (fetched.cur.pc.toNat + 8) r.2).toOption)
  have ha : a = some (0x0000_0005_0000_0002, (a.getD (0, demo)).2) := by decide +kernel
  have hb : b = some ([0x1040_0400_0000_0007], (b.getD ([], demo)).2) := by decide +kernel
  refine ⟨⟨by decide +kernel, by decide +kernel, by decide +kernel, by decide +kernel, by decide +kernel⟩, (b.getD ([], demo)).2,
    ⟨.inl (by decide +kernel), .inl (by decide +kernel), by decide +kernel, (a.getD (0, demo)).2, ok_of_eq ha, ok_of_eq ?_⟩, by decide +kernel,
    by decide +kernel, by decide +kernel, by decide +kernel⟩
  have : b = (State.fetchWords fetched.cur (presentSlots ((0x0000_0005_0000_0002 : Word).setWidth 8)).length
    (fetched.cur.pc.toNat + 8) (a.getD (0, demo)).2).toOption := by
    show a.bind _ = _
    rw [ha]; rfl
  rw [← this]
  exact hb

/-- A slot that takes effect and one that stops, a word of no instruction, and a bundle that blocks. -/
theorem witness_BundlesRunInOrder :
    demo.cur.slotInstr 1 0x1040_0000_0000_0007 = some (.li (y 7 0 0 0 0)) ∧
    (match exec (.li (y 7 0 0 0 0)) (demo.atSlot 1) with | .next t => t.stage.halt == .run | _ => false) = true ∧
    (match exec (.trap (y 0 0 0 0 0)) (demo.atSlot 7) with | .next t => t.stage.halt == .run | _ => false) = true ∧
    (match exec (.rett (y 0 0 0 0 0)) (demo.atSlot 7) with | .next t => t.stage.halt == .stopped | _ => false) = true ∧
    (decodeSyl (slotClass 1) (BitVec.allOnes 64)).toOption = none ∧ demo.task? 0 = some task0 ∧
    ({ demo with stage := { demo.stage with halt := .block .barrier } } : State).stage.halt = .block .barrier := by decide +kernel

theorem witness_StepKeepsCanonicalMemory : Memory.wf bundle.mem = true ∧
    (match step bundle with | .next _ => true | _ => false) = true := by decide +kernel

theorem witness_StoreIsReadBack : Memory.wf demo.mem = true ∧ demo.mem ≠ [] := by decide +kernel

/-- Whether a vector result can start. -/
def startsV (opc : Nat) (a lat : Nat) (s : State) : Bool := ((s.charged .V opc).putReg a lat 0 0).toOption.isSome

theorem witness_VectorElementwise :
    meets .V 0x001 (y 74 65 3 0 66) demo (fun g s1 => g.b.tag == 31 && tagsF g.b.tag.toNat g.d.tag.toNat g.e.tag.toNat &&
      startsV 1 74 4 s1) = true ∧
    meets .V 0x013 (y 74 69 0 0 69) demo (fun g s1 => g.b.tag == 22 && tagsI g.b.tag.toNat 0 g.e.tag.toNat &&
      startsV 0x13 74 2 s1) = true ∧
    meets .V 0x025 (y 74 70 0 0 3) demo (fun g s1 => g.b.tag == 34 && tagsShift 34 0 34 && startsV 0x25 74 2 s1) = true := by decide +kernel

theorem witness_VectorFunctionsAndConversions :
    meets .V 0x070 (y 74 65 0 0 0) demo (fun g s1 => tagsB g.b.tag.toNat 0 0 && startsV 0x70 74 12 s1) = true ∧
    meets .V 0x050 (y 74 70 0 31 0) demo (fun g s1 => g.b.tag == 34 && startsV 0x50 74 4 s1) = true ∧
    meets .V 0x055 (y 74 71 0 1 0) demo (fun g s1 => g.b.tag == 36 && startsV 0x55 74 4 s1) = true := by decide +kernel

theorem witness_VectorMasksAndSelection :
    meets .V 0x032 (y 1 65 0 0 66) demo (fun g _ => tagsN g.b.tag.toNat 0 g.e.tag.toNat) = true ∧
    meets .V 0x090 (y 74 65 0 16 0) demo (fun g s1 => g.b.tag == 31 && startsV 0x90 74 16 s1) = true ∧
    meets .V 0x091 (y 74 65 2 4 75) demo (fun g s1 => pruneTag g.b.tag.toNat &&
      (((s1.charged .V 0x91).putReg 74 16 0 31).toOption.any (fun s2 => (s2.putReg 75 16 0 33).toOption.isSome))) = true := by decide +kernel

theorem witness_VectorRearranging :
    meets .V 0x040 (y 74 65 0 0 66) demo (fun g s1 => classA g.b.tag.toNat && g.e.tag == g.b.tag && startsV 0x40 74 2 s1) = true ∧
    meets .V 0x080 (y 74 65 0 0 70) demo (fun g s1 => classA g.b.tag.toNat && g.e.tag == 34 && startsV 0x80 74 8 s1) = true ∧
    meets .V 0x088 (y 74 65 1 2 0) demo (fun g s1 => classA8 g.b.tag.toNat &&
      ((s1.charged .V 0x88).putReg 74 8 0 31).toOption.any (fun s2 => (s2.putS 2 8 0).toOption.isSome)) = true := by decide +kernel

theorem witness_VectorReductions :
    meets .V 0x060 (y 10 65 0 0 0) demo (fun g s1 => classN g.b.tag.toNat && startsS .V 0x60 10 8 0 s1) = true ∧
    meets .V 0x063 (y 74 68 0 3 0) demo (fun g s1 => classN g.b.tag.toNat && startsV 0x63 74 8 s1) = true := by decide +kernel

/-- A syllable guarded off, one of each class ready, and one with HOLD set. -/
theorem witness_SlotsWithoutEffect : demo.task? demo.stage.uid = some task0 ∧
    demo.stage.regs.guard { y 0 0 0 0 0 with na := true } = false ∧ demo.stage.slot < 8 ∧
    (∀ c ∈ [Cls.A, .S, .V, .M, .C], meets c 0 (y 0 0 0 0 0) demo (fun _ _ => true) = true) := by decide +kernel

/-- `demo` with queues as its task's. -/
def demoQ (f : Queues → Queues) : State := demoT (fun t => { t with q := f t.q })

/-- A stream of two scalar elements of four bytes. -/
def stream2 (out : Bool) (next : Nat) (buf : List Machine.Elem) : Stream := ⟨out, false, 0x10000, 4, 0, 2, 1, 2, 0, next, next, buf, 0, 0⟩

/-- Reads and writes of each kind of register. -/
theorem witness_OperandsAndResults :
    (0 < 1 ∧ (1 : Nat) % 64 ≠ 54 ∧ demo.cur.streamAt 1 false = none ∧ demo.cur.streamAt 127 false = none ∧ 127 % 64 ≠ 55) ∧
    ((demoQ (fun q => { q with ldata := [⟨1, false, some 7, 0⟩] })).cur.q.ldata = [⟨1, false, some 7, 0⟩]) ∧
    ((demoQ (fun q => { q with streams := [(0, stream2 false 1 [⟨1, some 7, none⟩])] })).cur.streamAt 56 false =
      some (0, stream2 false 1 [⟨1, some 7, none⟩])) ∧
    ((demoQ (fun q => { q with streams := [(0, stream2 false 2 [])] })).cur.streamAt 56 false = some (0, stream2 false 2 [])) ∧
    isSource .eS = true ∧ nthSta demo.cur.q.stores demo.cur.q.sdata.length = none ∧
    (let q := (demoQ (fun q => { q with stores := [.sta 0 0x1000 (.mem []) true 0 0 0] })).cur.q;
      nthSta q.stores q.sdata.length = some (.sta 0 0x1000 (.mem []) true 0 0 0)) := by decide +kernel

/-- A task with results due in cycle 0, one that two name, and an empty register. -/
def landingTask : Task := { task0 with
  regs := { regs0 with fes := (BitVec.allOnes 64) - 2 ^ 9 }
  flow := { task0.flow with inflight := [⟨0, .s 10, 1, 0⟩, ⟨0, .s 10, 2, 0⟩, ⟨5, .s 11, 3, 0⟩] } }

theorem witness_ResultsLand :
    (landingTask.regs.fullReg 10 = true ∧ landingTask.regs.fullReg 127 = true ∧ landingTask.regs.fullReg 9 = false) ∧
    ((demo.setTask 0 landingTask).task? 0 = some landingTask ∧ landingTask.flow.latches = [] ∧
      landingTask.flow.inflight = [⟨0, .s 10, 1, 0⟩] ++ ⟨0, .s 10, 2, 0⟩ :: [⟨5, .s 11, 3, 0⟩] ∧ (0 : Nat) ≤ demo.cycle) ∧
    (let t := { task0 with flow := { task0.flow with producers := [⟨.divider, 63, 1, 0, 7, none, none⟩] } };
      (demo.setTask 0 t).task? 0 = some t) ∧
    (let t := { task0 with flow := { task0.flow with latches := [⟨0, .s 63, 7, 0⟩], latchStart := some 0 } };
      (demo.setTask 0 t).task? 0 = some t ∧ t.regs.fullReg 63 = true) := by decide +kernel

theorem witness_Frames : (Instr.add (y 10 1 0 0 3)).syllable = some (.S, 1, y 10 1 0 0 3) ∧
    (Instr.div (y 10 1 0 0 3)).syllable = some (.S, 0x10, y 10 1 0 0 3) ∧ demo.stage.halt = .run ∧
    (∀ i ∈ [Instr.add (y 10 1 0 0 3), .div (y 10 1 0 0 3), .lea (y 10 1 0 0 3), .vadd (y 74 65 3 0 3), .sta (y 0 1 3 0 0)],
      runs demo i = true) := by decide +kernel
/-- `demo` without a plane. -/
def bare : State := demo.setPlot 0 { demo.plot 0 with active := Plane.zero }

/-- `demo` with the task at another level. -/
def demoPl (n : Nat) : State := demoT (fun t => { t with csr := { t.csr with tsw := putBits t.csr.tsw 4 2 n } })

theorem witness_Jumps :
    meets .C 0x003 (y 10 0 0 0 3) demo (fun _ s1 => startsS .C 3 10 1 (demo.behindBundle) s1) = true ∧
    meets .C 0x011 (y 0 0 0 0 0) demo (fun _ s1 => (s1.curPlane.word 0x100).getLsbD 63 && (s1.curPlane.word 0x41038).getLsbD 63) = true ∧
    meets .C 0x011 (y 0 0 0 0 0) bare (fun _ s1 => decide (s1.curPlane.valid = false)) = true ∧
    meets .C 0x011 (y 0 0 0 1 0) demo (fun _ s1 => decide ((s1.curPlane.word 0x100).toNat / 2 ^ 48 % 2 ^ 8 ≤ 1)) = true ∧
    meets .C 0x020 (y 0 0 0 0 0) demo (fun g s1 => decide (g.b.w.toNat < 256 ∧ (s1.curPlane.word 0x43200).getLsbD 63 = true)) = true ∧
    meets .C 0x020 (y 0 1 0 0 0) demo (fun g _ => decide (256 ≤ g.b.w.toNat)) = true ∧
    meets .C 0x020 (y 0 7 0 1 0) demo (fun g _ => g.b.w.getLsbD 63) = true ∧
    meets .C 0x020 (y 0 1 0 1 0) demo (fun g _ => decide (g.b.w.getLsbD 63 = false)) = true ∧
    meets .C 0x020 (y 0 7 0 1 0) bare (fun g s1 => g.b.w.getLsbD 63 && !s1.curPlane.valid) = true ∧
    meets .C 0x020 (y 0 10 0 1 0) (demoT (fun t => { t with regs := t.regs.setS 10 0x80FE000000000000 })) (fun g s1 =>
      g.b.w.getLsbD 63 && !(s1.curPlane.word (0x43200 + 8 * 254)).getLsbD 63) = true := by decide +kernel

/-- Its one entry stands in the last column, which one live row takes, and no row at all. -/
theorem witness_Jumps_entry : ScheduleEntry (fun c => demo.curPlane.word (0x41000 + 8 * c)) 1 7 ∧
    ScheduleEntry (fun c => demo.curPlane.word (0x41000 + 8 * c)) 0 7 := by
  unfold ScheduleEntry
  decide +kernel

/-- A phase of a kernel with no entry present. -/
theorem witness_Jumps_noEntry (n : Nat) : ∀ c, ¬ ScheduleEntry (fun _ => (0 : Word)) n c := by
  intro c h
  unfold ScheduleEntry at h
  split at h <;> simp at h

/-- The body of a loop behind the bundle: a header alone that ends level 1. -/
def looped : State := bare.store 0x40000010 (toLe 8 0x200)

/-- Counts of three and of zero, and the ways of a bundle's end at each level. -/
theorem witness_LoopsAndNextAddress :
    meets .C 0x008 (y 0 1 0 0 4) looped (fun g _ => decide (g.e.w.toNat = 8 ∧ looped.stage.header.lend.toNat ≠ 1)) = true ∧
    meets .C 0x008 (y 0 1 0 0 0) looped (fun g s1 => g.e.w == 0 && ((State.scanLoop s1.cur 1 1024 s1.behindBundle.toNat s1).toOption.any
      (fun r => r.1 == some (1, 0x18)))) = true ∧
    meets .C 0x009 (y 0 4 0 0 0) demo (fun _ _ => decide (demo.stage.header.lend.toNat ≠ 4)) = true ∧
    (Stage.zero.ending = false ∧ Stage.zero.returning = false ∧ ({ Stage.zero with branch := some 8 } : Stage).branch = some 8 ∧
      ({ Stage.zero with header := ⟨0, 4, false, 0⟩ } : Stage).header.lend.toNat = 3 + 1) := by decide +kernel

/-- `demo` with the task at the barrier. -/
def atBarrier (arrived passed : Bool) : State :=
  demoT (fun t => { t with job := { t.job with arrived := arrived, passed := passed } })

theorem witness_Barrier :
    meets .C 0x010 (y 0 0 0 0 0) (atBarrier true true) (fun _ _ => (atBarrier true true).cur.job.passed) = true ∧
    meets .C 0x010 (y 0 0 0 0 0) (atBarrier true false) (fun _ _ => !(atBarrier true false).cur.job.passed &&
      !(atBarrier true false).stage.checked) = true ∧
    (∃ e ∈ (atBarrier true false).tasks, e.2.job.slot = 1 ∧ e.2.job.group = 0 ∧ e.2.phase ≠ .aborted ∧ e.2.job.arrived = true) ∧
    (∃ e ∈ (atBarrier false false).tasks, e.2.job.slot = 1 ∧ e.2.job.group = 0 ∧ e.2.phase ≠ .aborted ∧
      e.2.job.arrived = false) := by decide +kernel

/-- `demo` at a level, with the value of s10. -/
def demoAt (pl : Nat) (v : Word) : State :=
  demoT (fun t => { t with csr := { t.csr with tsw := putBits t.csr.tsw 4 2 pl }, regs := t.regs.setS 10 v })

theorem witness_ControlRegisters :
    meets .C 0x018 (y 11 0 0 0 10) (demoAt 1 0x21) (fun g s1 => csrTable.contains (g.e.w.toNat, 1, 1) && s1.cur.pl == 1 &&
      startsS .C 0x18 11 2 0 s1) = true ∧
    meets .C 0x018 (y 11 0 0 0 10) (demoAt 0 0x20) (fun g s1 => csrTable.contains (g.e.w.toNat, 1, 1) && s1.cur.pl == 0) = true ∧
    meets .C 0x018 (y 11 0 0 0 10) (demoAt 2 0x07) (fun g _ => csrTable.all (fun e => e.1 != g.e.w.toNat)) = true ∧
    meets .C 0x019 (y 0 1 0 0 10) (demoAt 2 0x02) (fun g s1 => csrTable.contains (g.e.w.toNat, 0, 2) && s1.cur.pl == 2) = true ∧
    meets .C 0x01B (y 0 1 0 0 10) (demoAt 0 0x00) (fun g s1 => csrTable.contains (g.e.w.toNat, 0, 1) && s1.cur.pl == 0) = true ∧
    meets .C 0x019 (y 0 1 0 0 10) (demoAt 2 0x18) (fun g s1 => csrTable.contains (g.e.w.toNat, 0, 3) && s1.cur.pl == 2) = true ∧
    meets .C 0x019 (y 0 7 0 0 10) (demoAt 2 0x11) (fun g s1 => g.e.w == 0x11 && s1.cur.pl == 2) = true ∧
    meets .C 0x019 (y 0 11 0 0 10) (demoT (fun t => { t with
        regs := (t.regs.setS 10 0x11).setS 11 0xFFFFF, csr := { t.csr with spillbase := 0x40 } })) (fun g s1 => decide (12288 < getBits s1.cur.csr.spillbase 6 14 + getBits g.b.w 6 14)) = true := by decide +kernel

/-- A task with a division on its way to s53. -/
def dividing (t : Task) : Task := { t with flow := { t.flow with producers := [⟨.divider, 53, 1, 0, 7, none, none⟩] } }

theorem witness_TrapForms :
    meets .C 0x029 (y 0 0 0 0 0) demoH (fun _ s1 => s1.cur.flow.inHandler && s1.cur.q.loads.isEmpty && s1.cur.q.sdata.isEmpty) = true ∧
    meets .C 0x029 (y 0 0 0 0 0) demo (fun _ s1 => !s1.cur.flow.inHandler) = true ∧
    meets .C 0x029 (y 0 0 0 0 0) (demoH.onCur dividing) (fun _ s1 => s1.cur.flow.inHandler && s1.cur.pending 53) = true ∧
    (List.range 6).all (fun n => !demoH.cur.pending (48 + n)) = true ∧
    meets .C 0x029 (y 0 0 0 0 0) (demoH.onCur (fun t => { t with q := { t.q with
        sdata := [⟨1, false, 0, none⟩], stores := [.sta 0 0x1000 (.mem []) false 8 0 0] } })) (fun _ s1 => s1.cur.flow.inHandler && countSta s1.cur.q.stores == 1 && !s1.cur.q.sdata.isEmpty) = true ∧
    meets .C 0x02B (y 1 2 0 0 0) demo (fun g s1 => !s1.cur.invalidating && g.b.w.toNat % 8 == 0 &&
      (s1.resolve s1.cur .read g.b.w 8).toOption.any (fun r => match r.tgt with
        | .mem (p :: ps) => (p :: ps).all (·.fe) && !s1.needsFabric p.pa && !s1.isRemote p.pa && !s1.holds 0 s1.cur.q.seq (p.pa / 64)
        | _ => false)) = true ∧
    meets .C 0x012 (y 0 0 0 0 0) demo (fun _ s1 => s1.acreError 0 == none &&
      (s1.tiller 0).maps.any (fun e => e.2.owner == some 0 && e.2.err == none)) = true ∧
    meets .C 0x012 (y 0 0 0 0 0) (demo.onCur (fun t => { t with job := { t.job with acreErr := some ⟨64, 0⟩ } })) (fun _ s1 => (s1.acreError 0).isSome) = true := by decide +kernel

/-- `demo` at the end of its bundle, charged, with the stage changed. -/
def ending (s : State) (f : Stage → Stage) : State := { s with stage := f { s.stage with charged := true } }

/-- A bundle that ends with a trap pending, one that returns, and one that ends its task. -/
theorem witness_TrapForms_ends :
    (let s := ending demo (fun g => { g with trapAfter := some 7 }); let u := task0.counted false (s.stage.heldFor s.cycle);
      s.bundleEnds task0 u ∧ s.stage.returning = false ∧ s.stage.ending = false ∧
        ((u.after s.stage).landDue (s.stage.cycle + s.stage.heldFor s.cycle)).traps s 0) ∧
    (let s := ending demoH (fun g => { g with returning := true });
      s.bundleEnds s.cur ((s.cur.landDue (s.stage.cycle + s.stage.heldFor s.cycle)).counted false (s.stage.heldFor s.cycle)) ∧
        s.stage.ending = false ∧ s.stage.trapAfter = none ∧ s.cur.flow.inHandler = true) ∧
    (let s := ending demo (fun g => { g with ending := true });
      s.bundleEnds task0 (task0.counted false (s.stage.heldFor s.cycle)) ∧ s.stage.returning = false) :=
  ⟨⟨⟨by decide +kernel, by decide +kernel, by decide +kernel, by decide +kernel⟩, by decide +kernel, by decide +kernel,
      by decide +kernel, by decide +kernel, .inl (by decide +kernel)⟩,
    ⟨⟨by decide +kernel, by decide +kernel, by decide +kernel, by decide +kernel⟩, by decide +kernel, by decide +kernel,
      by decide +kernel⟩,
    ⟨by decide +kernel, by decide +kernel, by decide +kernel, by decide +kernel⟩, by decide +kernel⟩

/-- A task outside its handler, one in it, and one without a handler; an address of a late access; a header alone. -/
theorem witness_ExceptionEntry :
    (demo.task? 0 = some task0 ∧ task0.flow.inHandler = false ∧ demo.handlerEntry task0 = some 0 ∧ countSta task0.q.stores = 0) ∧
    ((demoH.task? 0).any (fun t => t.flow.inHandler) = true) ∧ bare.task? 0 = some task0 ∧ bare.handlerEntry task0 = none ∧
    (let t := { task0 with flow := { task0.flow with lates := [0x1000] } };
      (demo.setTask 0 t).task? 0 = some t ∧ t.phase = .ready ∧ (demo.setTask 0 t).handlerEntry t = some 0 ∧
        t.flow.inHandler = false) ∧
    ((decodeHeader 0x0000_0005_0000_0100).toOption = some ⟨5, 0, true, 0⟩ ∧
      ∀ i, i < 8 → (task0.flow.hold.getD i ⟨false, 0⟩).valid = false) := by decide +kernel

/-- `demo` with the task in a phase. -/
def inPhase (p : Phase) : State := demo.setTask 0 { task0 with phase := p, job := { task0.job with savedAt := 0x50000000 } }

theorem witness_ReturnsAndYields :
    ((inPhase .quiescing).task? 0).any (fun t => t.phase == .quiescing && (inPhase .quiescing).yieldReady 0 t) = true ∧
    ((inPhase .saving).task? 0).any (fun t => t.phase == .saving) = true ∧
    ((inPhase .yielded).task? 0).any (fun t => t.phase == .yielded && t.job.savedAt == 0x50000000 && t.job.lease == none &&
      (inPhase .yielded).resumeAt 0 t == some 0 &&
      !exhausted ((inPhase .yielded).word 0x50000040) ((inPhase .yielded).word 0x50000050) ((inPhase .yielded).word 0x50000058)) = true ∧
    Memory.wf (inPhase .yielded).mem = true := by decide +kernel

/-- An image that matches its CHECK. -/
theorem witness_ReturnsAndYields_sealed (s : State) (a : Nat) (h : s.Inv) :
    (s.sealImage a).imageCheck a = BitVec.ofNat 32 (leNat ((s.sealImage a).bytes (a + 0x5F00) 4)) := State.imageCheck_seal h a

theorem check_off (c : BitVec 32) : c ≠ BitVec.ofNat 32 (leNat (toLe 4 (c + 1).toNat)) := by
  rw [leNat_toLe]
  intro he
  have := congrArg BitVec.toNat he
  simp only [BitVec.toNat_ofNat, BitVec.toNat_add, show (1 : BitVec 32).toNat = 1 from rfl, show 256 ^ 4 = 2 ^ 32 from rfl] at this
  have := c.isLt
  omega

/-- An image that does not. -/
theorem witness_ReturnsAndYields_broken (s : State) (a : Nat) (h : s.Inv) : ∃ bs,
    (s.store (a + 0x5F00) bs).imageCheck a ≠ BitVec.ofNat 32 (leNat ((s.store (a + 0x5F00) bs).bytes (a + 0x5F00) bs.length)) := by
  refine ⟨toLe 4 (s.imageCheck a + 1).toNat, ?_⟩
  rw [State.imageCheck_store h, State.bytes_store h]
  exact check_off _

/-- A task past its yield distance, one at its end, and a grid that can fault. -/
theorem witness_TaskEnds :
    (demo.task? 0 = some task0 ∧ task0.phase = .ready ∧ demo.held = []) ∧
    (let t := { task0 with csr := { task0.csr with ypcnt := 13501 } };
      (demo.setTask 0 t).task? 0 = some t ∧ t.csr.ypmax.toNat % 2 ^ 32 < t.csr.ypcnt.toNat % 2 ^ 32) ∧
    (demo.slot 1).st = 3 ∧ 7 < 8 ∧ 31 < 32 ∧
    (let t := { task0 with phase := .ended };
      let s := (demo.setPlot 0 { demo.plot 0 with leases := [] }).setTask 0 t;
      s.task? 0 = some t ∧ s.ended 0 t = true ∧ t.q.sdata = [] ∧ (s.plot 0).leaseOf 0 = none ∧
        ∀ e ∈ (s.tiller 0).maps, ((s.tiller 0).map e.1).err = none) := by decide +kernel
/-- Whether an access resolves to memory at home and at once. -/
def atHome (s : State) (k : Acc) (va : Word) (len : Nat) (fe : Bool) : Bool :=
  (s.resolve s.cur k va len).toOption.any (fun r => match r.tgt with
    | .mem (p :: ps) => (p :: ps).all (fun p => p.fe == fe) && !s.needsFabric p.pa
    | _ => false)

theorem witness_MemoryForms :
    meets .A 0x010 (y 0 5 0 3 0) demo (fun g s1 => (ea g (y 0 5 0 3 0)).toNat % 8 == 0 && !s1.cur.invalidating) = true ∧
    meets .A 0x010 (y 0 2 0 3 0) demo (fun _ s1 => atHome s1 .read 0x40000000 8 true) = true ∧
    meets .A 0x011 (y 0 2 1 10 0) demo (fun _ s1 => atHome s1 .read 0x40000001 96 true) = true ∧
    meets .A 0x012 (y 0 2 120 0 0) demo (fun g s1 => (ea g (y 0 2 120 0 0) == 0x3FFFFFF8) && atHome s1 .write 0x3FFFFFF8 1 false) = true ∧
    meets .A 0x012 (y 0 2 0 7 0) demo (fun _ s1 => s1.cur.q.sdata.isEmpty) = true ∧
    meets .A 0x012 (y 0 2 0 7 0) (demoQ (fun q => { q with sdata := [⟨1, true, 31, none⟩] })) (fun _ s1 =>
      s1.cur.q.sdata.length == 1 && atHome s1 .write 0x40000000 128 true) = true ∧
    meets .A 0x014 (y 0 2 0 6 0) demo (fun _ s1 => (s1.checkAccess s1.cur.who .read 0x40000000 64).toOption.isSome) = true ∧
    meets .A 0x014 (y 0 7 0 6 0) demo (fun g s1 => (s1.checkAccess s1.cur.who .read g.b.w.toNat 64).toOption.isNone) = true ∧
    meets .A 0x015 (y 10 2 0 3 0) demo (fun _ s1 => (s1.produce .ldr 10 0 0 3).toOption.isSome) = true ∧
    meets .A 0x022 (y 10 2 3 3 4) demo (fun _ s1 => atHome s1 .write 0x40000000 8 true && s1.cur.streamAt 10 true == none) = true ∧
    meets .A 0x026 (y 54 2 0 2 4) demo (fun _ s1 => (s1.reserve false 0).toOption.isSome) = true ∧
    meets .A 0x030 (y 0 2 0 31 0) demo (fun _ s1 => atHome s1 .write 0x40000000 8 true) = true ∧
    meets .A 0x032 (y 0 2 0 0 0) demo (fun g _ => g.b.w.toNat % 64 == 0) = true := by decide +kernel

theorem witness_AccessFaultsNameAddress :
    meets .A 0x010 (y 0 2 1 1 0) demo (fun g _ => (ea g (y 0 2 1 1 0)).toNat % 2 == 1) = true ∧
    meets .A 0x011 (y 0 7 0 31 0) demo (fun _ s1 => (s1.resolve s1.cur .read 0x8000000000000000 128).toOption.isNone) = true ∧
    meets .A 0x012 (y 0 7 0 3 0) demo (fun _ s1 => (s1.resolve s1.cur .write 0x8000000000000000 8).toOption.isNone) = true ∧
    meets .A 0x031 (y 0 3 0 31 4) demo (fun g _ => g.b.w.toNat % 8 == 1) = true ∧
    meets .A 0x032 (y 0 4 0 0 0) demo (fun g _ => g.b.w.toNat % 64 == 8) = true ∧
    meets .A 0x033 (y 0 5 0 0 0) demo (fun _ s1 => atHome s1 .write 0x20000000 64 false) = true ∧
    meets .A 0x060 (y 0 1 0 4 3) (demoPl 0) (fun _ s1 => s1.cur.pl == 0) = true ∧
    meets .A 0x060 (y 0 1 0 7 3) (demoPl 1) (fun _ s1 => s1.cur.pl == 1) = true := by decide +kernel

/-- The head of both queues is the marker of an invalidation of one page. -/
def invalidates : Task := { task0 with q := { task0.q with
  stores := [.marker 9 1 3 0x40000000 (.mem []) (.tlbinv 0 1 0 0x40000000 0) none]
  loads := [⟨1, 0x40000000, .mem [], .marker 9, 0⟩] } }

theorem witness_OrderingForms :
    meets .A 0x042 (y 10 0 0 7 0) demo (fun _ s1 => startsS .A 0x42 10 1 0xDC00000000000000 s1) = true ∧
    meets .A 0x043 (y 0 7 0 0 0) demo (fun g s1 => g.b.w.getLsbD 63 && s1.cur.q.loads.isEmpty && s1.cur.q.stores.isEmpty) = true ∧
    meets .A 0x043 (y 0 1 0 0 0) demo (fun g _ => !g.b.w.getLsbD 63) = true ∧
    meets .A 0x050 (y 3 1 1 7 4) demo (fun g s1 => g.b.w.toNat % 128 == 0 && decide (g.e.w.toNat ≤ 2 ^ 32 / 2 ^ 7) &&
      decide (s1.descriptors s1.cur.tiller < 16)) = true ∧
    meets .A 0x060 (y 0 1 0 9 3) (demoPl 1) (fun _ s1 => s1.cur.pl == 1) = true ∧
    meets .A 0x060 (y 0 1 0 7 3) (demoPl 2) (fun _ s1 => s1.cur.pl == 2) = true ∧
    meets .A 0x058 (y 7 1 3 0 4) demo (fun g s1 => decide (g.e.w.toNat < 2 ^ 54) && s1.cur.streamIdle 7) = true ∧
    (demo.setTask 0 invalidates).task? 0 = some invalidates ∧ invalidates.phase = .ready ∧ invalidates.q.buffer = [] := by
  decide +kernel

/-- A load of eight bytes at home, towards a load-data entry or s63. -/
def loading (k : LoadKind) (ps : List Producer) : Task := { task0 with
  q := { task0.q with
    loads := [⟨1, 0x1000, .mem [⟨0x40001000, 8, false, ⟨0, 0⟩⟩], k, 0⟩]
    ldata := [⟨5, false, none, 0⟩]
    seq := 1 }
  flow := { task0.flow with producers := ps } }

/-- A place of the store buffer, of one access. -/
def place0 : Place := ⟨0x40002000 / 64, false, [⟨some (1, 0x2000), [(0, 1), (63, 2)]⟩], ⟨0, 0⟩, none⟩

/-- A pair at the head of the store queues, and a place of the store buffer. -/
def storingTask : Task := { task0 with q := { task0.q with
  stores := [.sta 1 0x103F (.mem [⟨0x4000103F, 1, false, ⟨0, 0⟩⟩]) false 1 0 0]
  sdata := [⟨5, false, 0, some 7⟩]
  buffer := [place0]
  seq := 1 } }

theorem witness_AccessesPerform :
    (let t := loading (.data 5 false 3) []; let s := demo.setTask 0 t;
      s.task? 0 = some t ∧ t.phase = .ready ∧ s.piecesHeld 0 1 [⟨0x40001000, 8, false, ⟨0, 0⟩⟩] = false ∧
        s.sampleAhead 0 1 = false ∧ ((lineParts ⟨0x40001000, 8, false, ⟨0, 0⟩⟩).all (fun l => (s.pieceBytes t.q 1 none l).isSome)) = true ∧
        s.needsFabric 0x40001000 = false ∧ s.piecesFull [⟨0x40001000, 8, false, ⟨0, 0⟩⟩] = true) ∧
    (let p : Producer := ⟨.ldr, 63, 5, 0, 0, none, none⟩; let t := loading (.reg 5 63 3) [p]; let s := demo.setTask 0 t;
      s.task? 0 = some t ∧ t.flow.producers.find? (fun p => p.id == 5) = some p) ∧
    (let s := demo.setTask 0 storingTask;
      s.task? 0 = some storingTask ∧ s.piecesHeld 0 1 [⟨0x4000103F, 1, false, ⟨0, 0⟩⟩] = false ∧ 0x4000103F % 64 + 1 ≤ 64 ∧
        s.nextPlace storingTask.q = some (0, place0) ∧ s.pathlessStore storingTask.q place0 = none ∧
        s.placeFar place0 = false ∧ (place0.bytes.map (·.1)).Nodup ∧ Memory.wf s.mem = true) ∧
    (∀ out, ∀ st ∈ [stream2 out 1 (if out then [⟨5, some 7, none⟩] else [])], let t := { task0 with q := { task0.q with streams := [(7, st)] } };
      let s := demo.setTask 0 t;
      s.task? 0 = some t ∧ Tab.get? t.q.streams 7 = some st ∧ st.moved < st.count1 * st.count2 ∧ t.performedBelow st.after = true ∧
        (∀ first, (s.streamReach 0 t (if out then .write else .read) st [] first).toOption.map (·.1) =
          some [(0x10004, ⟨0x40010004, 4, false, ⟨0, 0⟩⟩)]) ∧ s.heldPiece ⟨0x40010004, 4, false, ⟨0, 0⟩⟩ = false ∧
        s.piecesHeld 0 0 [⟨0x40010004, 4, false, ⟨0, 0⟩⟩] = false ∧ s.piecesFull [⟨0x40010004, 4, false, ⟨0, 0⟩⟩] = true ∧
        s.lostPiece [] [⟨0x40010004, 4, false, ⟨0, 0⟩⟩] = none) := by decide +kernel

/-- A marker at the head of both queues, at the last bytes of a line of the sync page. -/
def atMarker (op : MarkOp) : Task := { task0 with q := { task0.q with
  stores := [.marker 9 1 7 0x40000038 (.mem [⟨0x80000038, 8, true, ⟨0, 0⟩⟩]) op none]
  loads := [⟨1, 0x40000038, .mem [], .marker 9, 0⟩]
  seq := 1 } }

theorem atMarker_spec (op : MarkOp) : AtMarker (atMarker op) 9 1 7 0x40000038 ⟨0x80000038, 8, true, ⟨0, 0⟩⟩ op :=
  ⟨⟨nofun, nofun⟩, ⟨[], [], rfl⟩, ⟨_, [], rfl, rfl⟩, .inr rfl, nofun⟩

/-- Each operation at a line in the state that it needs. -/
theorem witness_SyncAccessesPerform :
    (∀ op ∈ [MarkOp.amo 0x24 8 true 0 1 (.reg 63), .amo 0x20 4 false 0 1 .none, .ldfe 8 true (.reg 63), .stfe 8 true 7, .setf, .sete],
      let s := demo.setTask 0 (atMarker op);
      s.task? 0 = some (atMarker op) ∧ s.needsFabric 0x80000038 = false ∧ s.holds 0 1 (0x80000038 / 64) = false ∧
        s.full 0x80000038 = true ∧ s.sampleAhead 0 1 = false ∧ Memory.wf s.mem = true) ∧
    (∀ op ∈ [MarkOp.amo 0x24 8 true 0 1 (.reg 63), .ldfe 8 true (.reg 63)],
      let s := { demo.setTask 0 (atMarker op) with empties := [0x80000038 / 64] };
      s.task? 0 = some (atMarker op) ∧ s.full 0x80000038 = false) ∧
    (let s := demo.setTask 0 (atMarker (.stfe 8 false 7)); s.full 0x80000038 = true) ∧
    (let s := { demo.setTask 0 (atMarker (.stfe 8 false 7)) with empties := [0x80000038 / 64] };
      s.full 0x80000038 = false ∧ s.holds 0 1 (0x80000038 / 64) = false) := by decide +kernel

/-- `demo` with the count of a range form in s10, and its task issuing one from s1. -/
def ranging (opc : Nat) (x : Syl) (count group : Nat) : State :=
  let w := wordOf opc x
  let g : Stage := { demo.stage with halt := .suspended, range := some ⟨w, 0x10000, count, 0, 0, 0,
    { rangeStart opc x w 0 with group := group }, 0⟩ }
  { demo with held := [(0, g)] }

/-- A count of zero, a full one, and a group that is the last and one that is not. -/
theorem witness_RangeForms :
    meets .V 0x0A0 (y 74 1 0 3 0) demo (fun g s1 => s1.cur.csr.pix == 0 && rangeGroups 0x0A0 (y 74 1 0 3 0) (g.c.w.toNat % 2 ^ 32) == 0 &&
      s1.cur.streamAt 74 true == none) = true ∧
    meets .V 0x0A0 (y 74 1 10 3 0) (demoAt 2 65536) (fun g s1 => decide (g.c.w.toNat % 2 ^ 32 ≤ 65536) && g.b.w.toNat % 4 == 0 &&
      decide (0 < rangeGroups 0x0A0 (y 74 1 10 3 0) (g.c.w.toNat % 2 ^ 32)) && s1.cur.csr.pix == 0) = true ∧
    (∀ e ∈ [(64, 0), (64, 1)], let s := ranging 0x0A0 (y 74 1 10 3 0) e.1 e.2;
      s.task? 0 = some task0 ∧ task0.q.loads = [] ∧ task0.q.stores = [] ∧
        (match s.held.find? (fun h => h.2.uid == 0 && h.2.halt == .suspended) with
          | some (_, g) => g.range.any (fun r =>
              (({ s with stage := g } : State).rangeFetch 0 task0 [] (unpack r.word) 4 (rangeReads 0x0A0 (unpack r.word) r e.2)).toOption.isSome &&
                (decide (r.part.group + 1 < rangeGroups 0x0A0 (unpack r.word) r.count) == (e.2 == 0)))
          | none => false) = true) := by decide +kernel
/-- A queued `azero` of the whole first tile. -/
def azeroCmd : AcreCmd := ⟨7, 0x030, 0, 0, 0, 0, 0x20100000, 0, 0, 0, 2, [], 0, none⟩

/-- `demo` with the plot's lease changed, and its entry running. -/
def leased (f : Lease → Lease) : State := demo.setPlot 0 { demo.plot 0 with leases := [(0, f lease0)], running := some 0 }

/-- `demo` with no lease, and with none that is free. -/
def unleased : State := demo.setPlot 0 { demo.plot 0 with leases := [] }
def allLeased : State := demo.setPlot 0 { demo.plot 0 with leases := (List.range 8).map (fun n => (n, { lease0 with holder := .gleaner n })) }

theorem witness_AcreForms :
    meets .M 0x001 (y 10 0 0 0 0) demo (fun _ s1 => ((s1.plot 0).leaseOf 0).isSome && startsS .M 1 10 1 0x80000000 s1) = true ∧
    meets .M 0x001 (y 10 0 0 0 0) unleased (fun _ s1 => (Tab.get? (s1.plot 0).leases 0).isNone && (s1.plot 0).waiting.isEmpty &&
      !(s1.plot 0).drains (.task 0) && (s1.produce .alease 10 0 0 0).toOption.isSome) = true ∧
    meets .M 0x001 (y 10 0 0 1 0) allLeased (fun _ s1 => (List.range 8).all (fun n => (Tab.get? (s1.plot 0).leases n).isSome) &&
      ((s1.plot 0).leaseOf 0).isNone && (s1.produce .alease 10 1 0 0).toOption.isSome) = true ∧
    meets .M 0x002 (y 0 10 0 0 0) (demoAt 2 0x80000000) (fun g s1 => g.b.w.getLsbD 31 && ((s1.plot 0).leaseOf 0).isSome) = true ∧
    meets .M 0x035 (y 0 0 0 0 0) demo (fun g s1 => g.b.w == 0 && s1.acreOutstanding 0 == 0 && s1.acreError 0 == none) = true ∧
    meets .M 0x035 (y 0 0 0 0 0) (leased (fun l => { l with err := some ⟨64, 0⟩ })) (fun _ s1 => (s1.acreError 0).isSome) = true ∧
    meets .M 0x010 (y 0 1 0 31 0) demo (fun g s1 => g.b.w.toNat % 64 == 0 && ((s1.plot 0).leaseOf 0).any (fun e =>
      !e.2.pending && decide (e.2.cmds.length < 16))) = true ∧
    meets .M 0x030 (y 0 10 0 0 0) (demoAt 2 0x20100000) (fun g s1 => g.b.w == 0x20100000 &&
      s1.cur.job.tiles.length == 2) = true ∧
    meets .M 0x021 (y 1 10 0 0 0) (demoAt 2 0x20101000) (fun g s1 => g.b.w == 0x20101000 && s1.cur.job.issueTags.getD 1 0 == 31 &&
      ((s1.plot 0).leaseOf 0).any (fun e => e.2.issued.av && e.2.issued.bv && pairOk false (e.2.issued.ad % 32) (e.2.issued.bd % 32))) = true ∧
    (∀ e ∈ [(0x012, y 0 0 0 0 0), (0x030, y 0 6 0 0 0), (0x033, y 0 1 6 0 0), (0x020, y 0 6 0 0 0), (0x034, y 0 6 0 0 0)],
      meets .M e.1 e.2 unleased (fun _ s1 => ((s1.plot 0).leaseOf 0).isNone && !(s1.plot 0).requests 0) = true) := by decide +kernel

/-- The whole tile, with the greatest reduction depth. -/
theorem witness_AcreForms_shape : ShapeOk 0x20100000 false ∧ ShapeWhole 0x20100000 ∧ ShapeOk 0x20101000 true := by
  unfold ShapeOk ShapeWhole
  decide +kernel

/-- The running lease with one command, a lease that drains, a grant and an amove that fill a register. -/
theorem witness_AcreRuns :
    (let s := leased (fun l => { l with cmds := [azeroCmd] }); let p := s.plot 0;
      p.begin.running = some 0 ∧ p.begin.began = none ∧ azeroCmd.touches = false ∧ task0.phase = .ready ∧
        ({ p with began := some 0 } : Plot).begin.began = some 0 ∧ lease0.err = none ∧
        ((s.runCmd (task0.engine 2) 0 [] lease0.ops azeroCmd (p.begin.tile 0)).toOption.any (fun r => r.1.occ == 8 + 128)) = true ∧
        (let t := { s with cycle := 300 }; max p.begin.endedAt (azeroCmd.since + 1) ≤ t.cycle ∧ 0 + 136 + 64 ≤ t.cycle + 1)) ∧
    (let c := { azeroCmd with opc := 0x010 }; let s := leased (fun l => { l with cmds := [c] });
      c.fillsArray = false ∧ ((s.runCmd (task0.engine 2) 0 [] lease0.ops c ((s.plot 0).tile 0)).toOption.any (fun r => r.1.occ == 0)) = true) ∧
    (azeroCmd.opc = 0x030 ∧ (0x20100000 : Word).toNat / 2 ^ 13 % 2 ^ 8 = 128 ∧ (0x20100000 : Word).toNat / 2 ^ 21 % 2 ^ 9 = 256) ∧
    (let s := demo.setPlot 0 { demo.plot 0 with running := some 0, quantum := (64, 0) }; (s.plot 0).running = some 0 ∧ 64 ≤ (s.plot 0).quantum.1) ∧
    (let p : Producer := ⟨.alease, 63, 5, 0, 0, none, none⟩; let t := { task0 with flow := { task0.flow with producers := [p] } };
      let s := (leased (fun l => { l with pending := true, token := some 5 })).setTask 0 t;
      s.task? 0 = some t ∧ (s.plot 0).waiting = [] ∧ ((s.plot 0).leases.find? (fun e => e.2.pending)).isSome = true ∧
        t.flow.producers.find? (fun p => p.id == 5) = some p) ∧
    (let s := leased (fun l => { l with releasing := true }); (Tab.get? (s.plot 0).leases 0).any (fun l => l.releasing && l.cmds.isEmpty) = true) ∧
    (let p : Producer := ⟨.amove, 127, 5, 0, 0, none, some (7, 31)⟩; let t := { task0 with flow := { task0.flow with producers := [p] } };
      (demo.setTask 0 t).task? 0 = some t ∧
        t.flow.producers.find? (fun p => p.kind == .amove && p.data.isSome) = some p) := by decide +kernel

/-- `demo` with the selector of a range of 512 chunks in s10, a mask that ends at chunk 511 in s11. -/
def selecting : State := demoT (fun t => { t with regs := (t.regs.setS 10 (512 * 512)).setS 11 0x81CF800000000000 })

theorem witness_DrillForms :
    meets .M 0x040 (y 0 1 5 31 10) (demoAt 2 512) (fun g s1 => g.e.w == 512 && (s1.curMap 31).owner == some 0 &&
      !inContextRegion g.c.w 512 && !inContextRegion g.b.w 512 && decide ((s1.tiller 0).drillDepth < 16)) = true ∧
    meets .M 0x040 (y 0 1 5 0 0) demo (fun g s1 => g.e.w == 0 && (s1.curMap 0).owner == none) = true ∧
    meets .M 0x041 (y 0 1 0 31 3) demo (fun g s1 => g.b.w.toNat % 64 == 0 && (s1.curMap 31).owner == some 0) = true ∧
    meets .C 0x04A (y 0 1 10 31 0) (demoAt 2 (1023 + 1024)) (fun g _ => decide (g.c.w.toNat % 2 ^ 10 + g.c.w.toNat / 2 ^ 10 % 2 ^ 11 = 1024)) = true ∧
    meets .C 0x040 (y 0 31 0 0 10) selecting (fun g s1 => g.e.w == 512 * 512 && (s1.curMap 31).err == none &&
      (List.range 512).all (s1.curMap 31).bits.getLsbD) = true ∧
    meets .C 0x041 (y 1 31 0 0 11) selecting (fun g _ => g.e.w.getLsbD 63) = true ∧
    meets .M 0x043 (y 0 0 0 95 0) demo (fun _ s1 => (s1.curMap 31).outstanding == 0 && (s1.curMap 31).err == none) = true := by decide +kernel

/-- The program of one element of 64 bytes from 0x40000 to 0x50000, with no stage. -/
def oneElement : List Byte :=
  toLe 8 0x40000 ++ toLe 8 0x50000 ++ toLe 8 0 ++ toLe 8 (64 + 64 * 2 ^ 13) ++ List.replicate 32 0 ++
    (List.range 6).flatMap (fun _ => toLe 8 0 ++ toLe 8 1)

/-- A descriptor of `furrow`: its original at 0x50000, its packed rows at 0x40000, strides and rows of 64 bytes. -/
def oneRow : List Byte := toLe 8 0x50000 ++ toLe 8 0x40000 ++ toLe 8 (64 + 64 * 2 ^ 32) ++ toLe 8 64

/-- A command of the queue of tiller 0, and the machine with it. -/
def drillCmd0 (kind : DrillKind) (x y z : Word) (started : Bool) (next : Nat) : DrillCmd :=
  { demo.drillCmd kind 31 x y z 0 0 with started := started, next := next, summed := true }
def drilling (c : DrillCmd) : State :=
  (demo.store 0x40030000 oneElement).setTiller 0 { (demo.tiller 0) with drill := [c] }

theorem witness_DrillRuns :
    (∀ k ∈ [DrillKind.marker, .copy, .drill], let c := drillCmd0 k 0x30000 0 0 false 0;
      ((drilling c).tiller 0).drill.find? (fun c => !c.started) = some c ∧ (drilling c).drillReady c = true) ∧
    (let c := drillCmd0 .drill 0x30000 0 0 false 0; let q := programOf oneElement;
      ((drilling c).drillRead 0 [] c 0x30000 160).toOption.map (·.1) = some oneElement ∧ q.valid = true ∧ q.gate = false ∧
        0 < q.total ∧ q.span [] = some [0]) ∧
    (let c := drillCmd0 .copy 0x50000 0x40000 512 true 0;
      ((drilling c).tiller 0).drill[0]? = some c ∧ c.next < c.total ∧ ((drilling c).drillRead 0 [] c 0x40000 512).toOption.isSome = true) ∧
    (let c := { drillCmd0 .copy 0x50000 0x40000 512 true 1 with buf := List.replicate 512 7 };
      c.next < c.total ∧ (State.drillTargets 0 [] [(0x50000, List.replicate 512 7)] c (drilling c)).toOption.map (·.1) =
        some [⟨0x50000, [⟨0x40050000, 512, false, ⟨0, 0⟩⟩], List.replicate 512 7⟩] ∧ (drilling c).needsFabric 0x40050000 = false ∧
        (drilling c).drillEnds c = none) ∧
    (let c := { drillCmd0 .drill 0x30000 0 0 true 0 with prog := oneElement }; let q := c.program;
      0 < q.total ∧ q.micro = 0 ∧ (drilling c).drillEnds c = none ∧ c.flight = [] ∧ q.dstOf c.mask 0 = some 0x50000 ∧
        ((drilling c).drillRead 0 [] c (q.srcOf c.z 0) q.ssize).toOption.map (·.1) = some (List.replicate 64 0)) ∧
    (let c := { drillCmd0 .furrow 0x30000 0 0x400 true 0 with prog := oneRow, rows := [1023] };
      c.next < c.rows.length ∧ ((drilling c).drillRead 0 [] c 0x40000 64).toOption.isSome = true ∧
        (State.drillTargets 0 [] [(0x5FFC0, List.replicate 64 0)] c (drilling c)).toOption.map (·.1) =
          some [⟨0x5FFC0, [⟨0x4005FFC0, 64, false, ⟨0, 0⟩⟩], List.replicate 64 0⟩]) ∧
    (let c := { drillCmd0 .copy 0x50000 0x40000 512 true 2 with span := [511], done := 1 };
      511 ∈ c.span ∧ c.failed = none ∧ (drilling c).chunkDone c 511 = true ∧ c.map < 64) ∧
    (let c := { drillCmd0 .copy 0x50000 0x40000 512 true 1 with flight := [(1, 9, 10)] };
      let s := ({ drilling c with fab := { demo.fab with
        reqs := [⟨9, .engine 0, 0, 2 ^ 51, .read 8, ⟨0, 0⟩, 4, false, false, 5, false⟩] } } : State);
      (c.flight.any (fun e => (c.chunks e.1).contains 0 && s.unacked e.2)) = true) := by decide +kernel
theorem witness_ServiceForms :
    meets .M 0x050 (y 10 1 3 0 3) (demoT (fun t => { t with regs := t.regs.setS 3 8 })) (fun g s1 => g.b.w.toNat % 64 == 0 &&
      g.c.w.toNat % 8 == 0 && (s1.die 0).colls.isEmpty && startsS .M 0x50 10 1 1 s1) = true ∧
    meets .M 0x051 (y 10 4 0 0 3) demo (fun g _ => g.b.w.toNat % 64 == 8) = true ∧
    meets .M 0x050 (y 10 1 7 0 3) (demoT (fun t => { t with regs := t.regs.setS 7 1 })) (fun g _ => g.b.w.toNat % 64 == 0 && g.c.w.toNat % 8 == 1) = true ∧
    meets .M 0x053 (y 0 4 4 0 3) demo (fun g _ => g.b.w.toNat % 32 == 8) = true ∧
    meets .M 0x053 (y 0 1 3 0 3) demo (fun g _ => g.b.w.toNat % 32 == 0 && g.c.w.toNat % 8 == 1) = true ∧
    meets .M 0x054 (y 0 4 0 0 0) demo (fun g _ => g.b.w.toNat % 64 == 8) = true ∧
    meets .M 0x054 (y 0 1 10 0 0) (demoAt 2 4097) (fun g _ => g.b.w.toNat % 64 == 0 && g.c.w == 4097) = true ∧
    meets .M 0x053 (y 0 1 4 0 3) demo (fun g s1 => g.b.w.toNat % 32 == 0 && g.c.w.toNat % 8 == 0 && (s1.die 0).samples.isEmpty) = true ∧
    meets .M 0x053 (y 10 1 4 0 3) demo (fun _ s1 => (s1.produce .sample 10 0 0 0).toOption.isSome) = true ∧
    meets .M 0x054 (y 0 1 10 0 0) (demoAt 2 4096) (fun g s1 => g.b.w.toNat % 64 == 0 && g.c.w == 4096 && (s1.die 0).fills.isEmpty) = true := by
  decide +kernel

/-- A collective of group 2 with one participant, die 0 of this package, number 5; its descriptor stands at 0x10000. -/
def collecting (started err : Bool) : State :=
  let s := demo.store 0x40010000 (toLe 8 0x20000 ++ toLe 8 0x30000 ++ toLe 8 1 ++ toLe 8 (2 + 2 ^ 16))
  let e : CollEntry := ⟨9, 0, 0, 2, 0, .coll, 0, 0x10000, 0x11000, 4, 0, [(0x1008000, 0x8000000000000001), (0x1008040, 5)],
    started, err, if started then [0x20000, 0x30000, 1, 2 + 2 ^ 16, 0, 0, 0, 0] else [], none⟩
  { s.setDie 0 { s.die 0 with colls := [e] } with fab := { s.fab with pkg := some 5 } }

/-- A sample that stands at the head, with its register 63. -/
def sampling : State :=
  let p : Producer := ⟨.sample, 63, 5, 0, 0, none, none⟩
  (demo.setTask 0 { task0 with flow := { task0.flow with producers := [p] } }).setDie 0 { demo.die 0 with
    samples := [⟨9, 0, 0, 2, 0, 0x10000, 0x40000000, 0, 63, 0, 0, some 5, none⟩] }

/-- A group in a state with an operation, of preset 2 with eight lanes; and a machine that has it as group 4. -/
def group4 (st : CapoState) (op : Option Bool) (target : Nat) : Group :=
  { Group.zero with st := st, op := op, preset := 2, target := target, width := 8, lanes := 0xFF }
def linked (st : CapoState) (op : Option Bool) (target : Nat) : State :=
  { demo with fab := { demo.fab with
    groups := [(4, group4 st op target)]
    routes := [(5, [4])]
    pkg := some 3 } }

/-- The same with the third GiB mapped on package 5, to which the group holds requests back. -/
def behindHeld (s : State) : State := { (s.store 0x200010 (toLe 8 (2 ^ 51 + 5 * 2 ^ 41 + 0x40000013))) with
  fab := (linked .retrain (some false) 0).fab }

/-- A collective started whose source stands behind the fabric, and a sample whose parameters do. -/
def collHeld : State := behindHeld ((collecting true false).setDie 0 { (collecting true false).die 0 with
  colls := ((collecting true false).die 0).colls.map (fun e => { e with words := [0x80020000, 0x30000, 1, 2 + 2 ^ 16, 0, 0, 0, 0] }) })
def sampleHeld : State := behindHeld (sampling.setDie 0 { sampling.die 0 with
  samples := (sampling.die 0).samples.map (fun e => { e with req := 0x80010000 }) })

theorem witness_ServicesRun :
    (let s := collecting false false; let queued := ((List.range 4).flatMap (fun d => (s.die d).colls)).filter (fun e => !e.started && e.inst.toNat == 4);
      (match s.readColls [] queued with
        | .error _ => false
        | .ok (es, s1) => let all := es.filter (fun e => !e.words.isEmpty && e.part.group == 2); let mine := all.filter s1.isHead;
          ((es.filter s.isHead).find? (fun e => e.words.isEmpty || (e.part.group == 2 && !s.groupOk (firstTable all) e))).isNone &&
            mine.length == 1 && all.all (fun e => s1.isHead e || !s1.groupOk (firstTable all) e) &&
            mine.all (fun m => m.part.npart == 1 && m.part.rank == 0 && groupMember (firstTable all) m.die 2 0 == (5, 0) && m.die == 0) &&
            mine.all (s1.namedQuiet (mine.flatMap s1.namedPieces))) = true ∧
        ∀ e ∈ (s.die 0).colls, e.plot / 32 = 0) ∧
    (∀ err : Bool, let s := collecting true err;
      (((List.range 4).flatMap (fun d => (s.die d).colls)).filter
        (fun e => e.started && e.inst.toNat == 4 && (e.words.isEmpty || e.part.group == 2))).map (fun e => (e.err, e.sent.isNone)) = [(err, true)]) ∧
    (let s := collecting true false; (match s.instanceResult [] (s.die 0).colls [] with
      | .ok (rs, s1) => !(s1.writeResults rs).unacked (s1.fresh, (s1.writeResults rs).fresh) &&
        ((s1.writeResults rs).endColls [] (rs.map (fun r => (r.1.entry, doneWord false r.1.recv r.1.defer)))).toOption.isSome
      | .error _ => false) = true) ∧
    (collHeld.instanceResult [] (collHeld.die 0).colls []).toOption.isNone = true ∧
    (match collHeld.instanceResult [] (collHeld.die 0).colls [] with | .error r => r.code == heldCode | .ok _ => false) = true ∧
    (let s := collecting true false; let es := (s.die 0).colls.map (fun e => { e with words := [0x8000000000000000, 0x30000, 1, 2 + 2 ^ 16, 0, 0, 0, 0] });
      (match s.instanceResult [] es [] with
        | .error r => r.code != heldCode && ((s.logLost r.who [] r.ctx r.code r.va).endColls [] (es.map (fun e => (e, doneWord true 0 0)))).toOption.isSome
        | .ok _ => false) = true) ∧
    (let s := collecting true true; (s.endColls [] ((s.die 0).colls.map (fun e => (e, doneWord true 0 0)))).toOption.isSome = true ∧
      ∀ e ∈ (s.die 0).colls,
      (((((s.setDie e.die { s.die e.die with colls := (s.die e.die).colls.filter (fun x => x.id != e.id) }).onTask e.uid
        (fun t => t.done e.id)).engTarget e.who [] true e.doneVa 8).toOption.map (·.1)) = some [⟨0x40011000, 8, false, ⟨0, 0⟩⟩])) ∧
    (let s := sampling; (∀ x ∈ (s.die 0).samples, x.sent = none) ∧ ((s.die 0).samples.take 4).find? s.sampleReady = (s.die 0).samples.head? ∧
      ∀ e ∈ (s.die 0).samples, (s.serveSample 0 [] e).toOption.isSome = true ∧ ((s.draw [] e).toOption.any (fun r =>
        ((r.2.engTarget e.who [] true e.readyVa 8).toOption.any (fun q => q.1.all (fun p => p.pa == 0x80000000))))) = true) ∧
    (let s := sampleHeld; ((s.die 0).samples.take 4).find? s.sampleReady = (s.die 0).samples.head? ∧
      ∀ e ∈ (s.die 0).samples, (s.serveSample 0 [] e).toOption.isNone = true) ∧
    (f32 0x3F000000).isNan = false := by decide +kernel

/-- `demo` with a record at 0x10000: one group, its counter at the sync page. -/
def recorded : State :=
  (demo.store 0x40010048 (toLe 8 1 ++ toLe 8 0x40000000)).setReg 0x120000 0x8000000000000000

/-- The same with an accepted launch of it in slot 0, by nobody that is left. -/
def launched (va : Nat) : State :=
  let x := ((((Slot.zero.put 0 63 1 1).put 0 60 3 1).put 11 0 56 va).put 4 0 64 (2 ^ 64 - 1)).put 1 0 32 7
  let s := (recorded.setReg 0x120010 0xFFFFFFFFFFFFFFFF)
  { s with slots := [(0, x)] }

theorem witness_LaunchForms :
    meets .C 0x030 (y 0 10 3 0 3) (recorded.onCur (fun t => { t with regs := t.regs.setS 10 0x10000 })) (fun _ s1 => !s1.cur.invalidating) = true ∧
    meets .C 0x030 (y 0 1 3 0 3) recorded (fun g s1 => g.b.w.toNat % 64 == 0 && !(s1.slot 0).v &&
      (s1.checkAccess s1.cur.who .read g.b.w.toNat 128).toOption.isSome) = true ∧
    meets .C 0x031 (y 0 3 0 0 3) demo (fun g s1 => (s1.slotNamed (g.b.w.toNat % 2 ^ 32)).any (fun e => e.2.st == 3 &&
      decide (e.2.g + g.e.w.toNat < 2 ^ 40) && !s1.faultsNow e.1)) = true ∧
    meets .C 0x031 (y 0 3 0 0 3) { demo with agenda := [.event (.gridFault 1 3), .tick] } (fun g s1 => g.b.w == 1 &&
      s1.faultsNow 1 && (s1.slot 1).st == 3) = true ∧
    meets .C 0x031 (y 0 3 0 0 3) { demo with agenda := [.tick, .event (.gridFault 1 3)] } (fun _ s1 => !s1.faultsNow 1) = true ∧
    meets .C 0x031 (y 0 3 0 0 3) (demoPl 0) (fun g s1 => s1.cur.pl == 0 && g.b.w.toNat % 2 ^ 32 != s1.cur.csr.gridid.toNat % 2 ^ 32) = true ∧
    meets .C 0x032 (y 0 2 0 0 0) demo (fun g s1 => g.b.w.toNat % 8 == 0 && atHome s1 .read g.b.w 8 true && s1.full 0x80000000 &&
      !s1.holds 0 s1.cur.q.seq (0x80000000 / 64)) = true ∧
    meets .C 0x033 (y 0 2 0 0 3) demo (fun g s1 => g.b.w.toNat % 8 == 0 && atHome s1 .write g.b.w 8 true && s1.cur.q.sigcs.isEmpty) = true ∧
    meets .C 0x034 (y 0 0 0 127 0) (demoPl 1) (fun _ s1 => s1.cur.pl == 1) = true ∧
    meets .C 0x034 (y 0 0 0 127 0) (demoPl 0) (fun _ s1 => s1.cur.pl == 0) = true := by decide +kernel

theorem witness_BudgetForms :
    meets .C 0x038 (y 10 0 0 3 0) demo (fun _ s1 => startsS .C 0x38 10 2 0 s1) = true ∧
    meets .C 0x03A (y 0 0 0 0 3) (demoPl 1) (fun _ s1 => s1.cur.pl == 1) = true ∧
    meets .C 0x03A (y 0 0 0 1 3) (demoT (fun t => { t with csr := { t.csr with tsw := 0, cap := 0x8001000000000001 } })) (fun g s1 =>
      s1.cur.pl == 0 && s1.cur.csr.cap.getLsbD 63 && s1.cur.csr.cap.toNat / 2 ^ 48 % 2 ^ 8 == 1 && g.e.w == 1) = true ∧
    meets .C 0x03A (y 0 3 0 3 3) demo (fun g s1 => (s1.slotNamed (g.b.w.toNat % 2 ^ 32)).any (fun e => e.2.st == 3)) = true ∧
    meets .C 0x03A (y 0 0 0 2 3) (demoPl 0) (fun _ s1 => s1.cur.pl == 0) = true ∧
    meets .C 0x050 (y 10 0 0 1 3) (demoPl 0) (fun _ s1 => startsS .C 0x50 10 2 0 s1) = true ∧
    meets .C 0x050 (y 10 0 0 2 3) (demoPl 0) (fun _ s1 => s1.cur.pl == 0) = true := by decide +kernel

theorem witness_RowForms :
    meets .C 0x048 (y 0 5 10 32 0) (demoAt 2 0x2_0000_0000) (fun g s1 => decide ((rows g.c.w).2 = 0) && s1.curPlane.valid) = true ∧
    meets .C 0x048 (y 0 10 11 0 0) rowsDemo (fun g s1 => decide ((rows g.c.w).1 + (rows g.c.w).2 ≤ 1024) && !decide ((rows g.c.w).2 = 0) &&
      g.b.w.toNat % 4 == 0 && (s1.holdCheck .read g.b.w ((rows g.c.w).2 * 4)).toOption.any (fun r => !s1.holdWaits r.1 [])) = true ∧
    meets .C 0x049 (y 10 11 0 0 0) rowsDemo (fun g s1 => decide ((rows g.b.w).1 + (rows g.b.w).2 ≤ 1024) && startsS .C 0x49 10 1 0 s1) = true ∧
    meets .C 0x049 (y 10 11 0 0 0) (demoT (fun t => { t with regs := t.regs.setS 11 (1 + 1024 * 1024) })) (fun g _ =>
      decide ((rows g.b.w).1 + (rows g.b.w).2 = 1025)) = true ∧
    meets .C 0x04B (y 0 1 10 0 0) (demoAt 2 0x1FF81FFFF) (fun g s1 => decide (g.c.w.toNat < 2 ^ 33) && g.c.w.toNat / 2 ^ 17 % 64 == 0 &&
      (s1.die 0).notices.isEmpty) = true ∧
    meets .C 0x04C (y 10 5 0 0 4) demo (fun g s1 => g.c.w == 0 && g.b.w.toNat % 2 == 0 && (s1.directory 0).1.getLsbD 63 &&
      startsS .C 0x4C 10 1 0 s1) = true := by decide +kernel
/-- A task with one `sigc` to the last word of its line. -/
def signalling : Task := { task0 with q := { task0.q with sigcs := [⟨0x40000038, 0x80000038, 7, 0, [], none⟩] } }

/-- A notice of task 0 to package 5. -/
def notified (pkg : Option Nat) : State :=
  { demo.setDie 0 { demo.die 0 with notices := [⟨0, 0, 0, 1, 5⟩] } with fab := { demo.fab with pkg := pkg } }

/-- The last row of plot 0 that a notice still has to set. -/
def exiting : Plot := { demo.plot 0 with exits := [(1023, 63), (5, 0)] }

theorem witness_SystemEvents :
    ((demo.reg 0x183000).toNat % 2 ^ 33 ≤ 2 ^ 33 ∧ (let s := { demo with cycle := 2 ^ 33 }; (s.reg 0x183000).toNat % 2 ^ 33 ≤ s.cycle - (s.die 3).windowStart)) ∧
    ((demo.plot 0).active.valid = true ∧ ((demo.plot 0).active.word 0).toNat / 2 ^ 32 % 64 = wordAt (toLe 8 1 ++ toLe 8 5) 8 / 2 ^ 33 % 64) ∧
    ((notified (some 5)).die 0).notices.map (·.target.toNat % 2 ^ 10) = [5] ∧ (notified none).fab.pkg = none ∧
    (∀ pkg ∈ [some 5, none], ∀ e ∈ (notified pkg).plots, e.2.exits = []) ∧
    (let s := demo.setPlot 0 exiting; s.plots.find? (fun e => e.1 / 32 == 0 && !e.2.exits.isEmpty) = some (0, exiting)) ∧
    (1023, 63) ∈ maskRows 0x8000000000000000 960 63 ∧
    (let s := demo.setTask 0 signalling; s.task? 0 = some signalling ∧ signalling.homeBelow 0 = true ∧
      s.holds 0 0 (0x80000038 / 64) = false ∧ s.needsFabric 0x80000038 = false) ∧
    (let s := launched 0x10000; let x := s.slot 0; (s.slot 0).st = 1 ∧ s.launcherReady (s.slot 0) = true ∧
      (match s.recordRead x.who [] (x.get 11 0 56) with
        | .ok (bs, s1) => recordOk bs x.launcherPl && (wordAt bs 0x48).toNat % 2 ^ 40 == 1 &&
          (match s1.counterAt x.who ((wordAt bs 0x50).toNat % 2 ^ 56) with
            | some (p, _) => let z := s.applyTemplate { x with ctr := p.pa, ctrPol := p.pol } bs
                p.pa == 0x80000000 && !s.needsFabric p.pa && z.fits && z.get 0 58 1 == 0
            | none => false) &&
          (s.template ((wordAt bs 0x40).toNat / 2 ^ 8 % 16) 0).getLsbD 63
        | .error _ => false) = true) ∧
    (let s := launched 0x8000000000; (match s.recordRead (s.slot 0).who [] ((s.slot 0).get 11 0 56) with
      | .error e => e.1 != heldCode
      | .ok _ => false) = true) ∧
    (let x := ((((slot1.put 4 0 64 (2 ^ 64 - 1)).put 1 32 7 0).put 3 0 40 5).put 11 0 56 0x10000);
      let s := { recorded with slots := [(1023, x)] };
      s.pick 0 = some (1023, x) ∧ x.size = 1 ∧ x.disp = false ∧ s.mayPlace x 0 = true ∧ (s.plot 0).pickedAt ≠ s.cycle + 1 ∧
        s.pick 127 = none ∧ (∀ q, q < 127 → 0 < q → s.picksNow 1023 q = false) ∧
        (match s.recordRead x.who [] (x.get 11 0 56) with
          | .ok (bs, _) => retakenOk bs (x.launcherPl == 0)
          | .error _ => false) = true) ∧
    (let s := (inPhase .yielded).setPlot 0 { (inPhase .yielded).plot 0 with flip := true, shadow := ⟨true, []⟩ };
      (s.plot 0).flip = true ∧ (s.plot 0).shadow.valid = true ∧ s.tasks.map (·.2.phase) = [.yielded]) := by decide +kernel

/-- Two tasks of one gang, the first Blocked at the barrier for a number of cycles, the other not arrived. -/
def stuck (n : Nat) : State :=
  let t := { task0 with phase := .blocked .barrier, job := { task0.job with blockedFor := n, arrived := true } }
  { demo with
    tasks := [(0, t), (1, { t with ctx := some 1, job := { t.job with arrived := false } })]
    probes := [⟨0, 1, [0], [1], 4095⟩, ⟨0, 0, [0, 1], [1], 2⟩, ⟨0, 1, [0], [1], 4096⟩]
    reports := [.probe [0, 1] [], .probe [0, 1] [1]] }

theorem witness_WaitCycles :
    (∀ n ∈ [128, 128 + 65536], ((stuck n).task? 0).any (fun t => t.phase == .blocked .barrier && decide (128 ≤ t.job.blockedFor) &&
      (t.job.blockedFor - 128) % 65536 == 0 && (stuck n).edges 0 t .barrier == ([1], [])) = true) ∧
    (stuck 0).probes[0]? = some ⟨0, 1, [0], [1], 4095⟩ ∧ (stuck 0).probes[1]? = some ⟨0, 0, [0, 1], [1], 2⟩ ∧
    (stuck 0).probes[2]? = some ⟨0, 1, [0], [1], 4096⟩ ∧ (stuck 0).reports[0]? = some (.probe [0, 1] []) ∧
    (stuck 0).reports[1]? = some (.probe [0, 1] [1]) ∧ (stuck 0).orderWait 1 = false ∧
    ((stuck 0).setTask 1 { task0 with phase := .blocked (.line 0x80000000), ctx := some 1 }).orderWait 1 = false := by decide +kernel

/-- `demo` with an owner (1 the board, 2 the host, 3 the fabric). -/
def owned (n : Nat) : State := { demo with mgmt := { demo.mgmt with own := BitVec.ofNat 64 (16 * n) } }

theorem allowed_core : Allowed demo .core := ⟨by decide +kernel, by decide +kernel, .inl rfl⟩
theorem allowed_host : Allowed (owned 2) (.master .host) :=
  ⟨by decide +kernel, by decide +kernel, .inr ⟨.host, 2, rfl, by decide, by decide +kernel⟩⟩
theorem refused_host : ¬ Allowed demo (.master .host) := by
  rintro ⟨-, -, h | ⟨m, code, h, hm, ho⟩⟩
  · cases h
  · cases h
    simp at hm
    subst hm
    revert ho
    decide +kernel

/-- A slot of each state that a write meets, and a held one that can be bound. -/
theorem witness_PlanesAndSlots : Allowed demo .core ∧ Allowed (owned 2) (.master .host) ∧ ¬ Allowed demo (.master .host) ∧
    (demo.slot 0).st = 0 ∧ (demo.slot 1).st = 3 ∧ (Slot.zero.put 0 60 4 10).st = 2 ∧
    (let x := { (((slot1.put 4 0 64 1).put 0 24 5 23).put 0 60 4 11) with launcher := some 0 };
      x.st = 3 ∧ x.ok = true ∧ x.g ≠ 0 ∧ x.fits = true) ∧
    ((demo.setPlot 0 { demo.plot 0 with flip := true }).plot 0).flip = true ∧ (demo.plot 127).flip = false :=
  ⟨allowed_core, allowed_host, refused_host, by decide +kernel⟩

/-- Last entries of each table, and words that pass its checks. -/
theorem witness_TableWrites : CoreRuns demo .core ∧ Allowed demo .core ∧ ¬ Allowed demo (.master .host) ∧
    demo.rootOk 0x100000 = true ∧ demo.rootOk 0x100040 = false ∧ (demo.participants 3 255 1).Nodup ∧
    portLineOk 0x8000000040000000 = true ∧ recordAt 0x5007E0 = true ∧ recordAt 0x500800 = false ∧
    regionOk (fun i => ([0, 0, 0, 0x8000010000000001, 0, 0, 0x0002004100400020, 0x7C00000000] : List Word).getD i 0) = true :=
  ⟨⟨by decide +kernel, by decide +kernel, rfl⟩, allowed_core, refused_host, by decide +kernel⟩

theorem witness_TableWrites_window : WindowOk demo 127 (BitVec.ofNat 64 (2 ^ 62 + 0x1FC000000000 % 2 ^ 52), 256) := by
  unfold WindowOk windowOf
  decide +kernel

/-- The board's package in recovery. -/
theorem witness_RegisterWrites_recovery :
    InRecovery { owned 1 with mgmt := { (owned 1).mgmt with recovery := true } } (.master .board) := ⟨rfl, rfl, by decide +kernel⟩

theorem witness_RegisterWrites : demo.mgmt.overtemp = false ∧ demo.mgmt.recovery = false ∧ Allowed (owned 2) (.master .host) ∧ Allowed demo .core ∧ 800 ≤ (3200 : Word).toNat ∧
    (1 : Word).getLsbD 0 = true ∧ 0x600000 ≤ 0xFFFFF8 := ⟨by decide +kernel, by decide +kernel, allowed_host, allowed_core, by decide +kernel⟩
/-- A grid of one gang of 32 for a plot that its own task keeps from it: a dispatch-order wait. -/
theorem witness_WaitCycles_order :
    (let x := (slot1.put 1 32 7 31).put 4 0 64 1;
      let s := ({ stuck 0 with slots := [(1, x)], tasks := [(0, { task0 with phase := .blocked (.grid 1) })] } : State);
      ({ s with reports := s.reports.eraseIdx 1 } : State).orderWait 1) = true := by decide +kernel

theorem witness_LinksAndPaths :
    (let s := linked .up none 0; (s.group 4).st = .up ∧ (s.group 4).rxSeq = 0 ∧ s.evenOf 4 = 4 ∧ 7 < (s.group 4).span ∧
      (s.group 4).working.getLsbD 7 = true ∧ (s.setReg 0x160300 0x1000).statusBlock = some 0x1000 ∧ s.fab.reqs = [] ∧
      4 ∈ s.pathSet 5) ∧ ((linked .retrain (some false) 0).group 4).working.getLsbD 7 = true ∧
    (let s := linked .up none 0; let t := ({ s with fab := { s.fab with notices := [⟨5, .path 6 false, none, some (4, 0)⟩] } } : State);
      (s.group 4).st = .up ∧ (t.fab.reqs = [] ∧ ∀ n ∈ t.fab.notices, n.sent ≠ none) ∧ t.fab.inbound.queued = []) ∧
    (∀ st ∈ [CapoState.off, .withdraw, .retrain, .down], st ∉ [CapoState.up, .quiesce, .drain]) ∧
    (demo.group 31).st = .off ∧ (group4 .up none 0).blockOf 8 = some 0 ∧ (group4 .up none 0).tries = some 8 ∧
    Tab.get? (linked .up none 0).fab.paths 5 = none ∧
    (let s := linked .up none 0; let t := ({ s with fab := { s.fab with paths := [(5, [4])] } } : State); Tab.get? t.fab.paths 5 ≠ none ∧
      t.fab.reqs = []) ∧ 1024 ≤ 1024 ∧ 1023 < 1024 := by decide +kernel

/-- Writes of CAPOREQ: to preset 0 with two lanes, to preset 2 with all, and one with a preset above 4. -/
theorem witness_CapoOperations : Allowed (owned 2) (.master .host) ∧ ¬ Allowed demo (.master .host) ∧
    (let s := linked .up none 0; let v : Word := 0x8000_0000_0003_0000; s.capoErr 4 v = 0 ∧ v.getLsbD 63 = true ∧
      v.toNat / 2 ^ 56 % 16 ≠ (s.group 4).preset) ∧
    (let s := linked .up none 0; let v : Word := 0x8200_0000_00FF_0000; s.capoErr 4 v = 0 ∧ v.toNat / 2 ^ 56 % 16 = (s.group 4).preset) ∧
    (let s := linked .up none 0; let v : Word := 0x8500_0000_00FF_0000; s.capoErr 4 v = 2 ∧ 4 < v.toNat / 2 ^ 56 % 16) ∧
    ((linked .quiesce (some true) 0).group 4).st = .quiesce ∧ (linked .quiesce (some true) 0).evenOf 4 = 4 ∧
    (let s := linked .quiesce (some true) 0; let t := ({ s with fab := { s.fab with
        groups := [(4, group4 .quiesce (some true) 0), (31, group4 .up none 0)], routes := [(5, [4, 31])] } } : State);
      (t.group 4).ualink = true ∧ (t.group 4).width ≠ 0 ∧ t.fab.peerOut = [] ∧ t.fab.routes = [(5, [4, 31])]) ∧
    ((linked .drain (some true) 0).group 4).st = .drain ∧ (let s := linked .drain (some true) 0; s.fab.notices = [] ∧ s.fab.reqs = [] ∧
      s.fab.inbound.waiting = [] ∧ s.fab.inbound.queued = [] ∧ ∀ g ∈ s.members 4, (s.group g).retry = [] ∧ (s.group g).lane = []) ∧
    (let s := (linked .drain (some true) 0).setGroup 4 { group4 .drain (some true) 0 with retry := [0] };
      (s.group 4).st = .drain ∧ 4 ∈ s.members 4 ∧ (s.group 4).retry ≠ []) ∧
    (let s := { linked .drain (some true) 0 with cycle := 2 ^ 20 }; (s.group 4).drainFrom + s.drainLimit 4 ≤ s.cycle) ∧
    ((linked .withdraw (some true) 0).group 4).target = 0 ∧ ((linked .withdraw (some true) 3).group 4).target ≠ 0 ∧
    (let s := linked .retrain (some false) 0; (s.group 4).tries = some 8 ∧ s.fab.pkg ≠ none) ∧
    ({ group4 .retrain (some false) 0 with tried := [8, 4] } : Group).tries = some 2 ∧
    ({ group4 .retrain (some false) 0 with tried := [8, 4, 2] } : Group).tries = none :=
  ⟨allowed_host, refused_host, by decide +kernel⟩

/-- The machine of group 4 with package 5 as a peer. -/
def peered : State := (linked .up none 0).setReg 0x160200 (BitVec.ofNat 64 (2 ^ 5))

/-- A request of package 5, and one of this package to it, sent. -/
def inbound (op : FarOp) (a : Nat) : FarRequest := ⟨5, 1, a, op, 4, false⟩
def farReq (p : Purpose) (left : Nat) : Req := ⟨9, p, 0x1000, 2 ^ 51 + 5 * 2 ^ 41 + 0x40001000, .read 8, ⟨0, 0⟩, 4, false, false, left, false⟩
def asking (p : Purpose) (left : Nat) : State :=
  let t : Task := { task0 with q := { task0.q with
    loads := [⟨1, 0x1000, .mem [⟨2 ^ 51 + 5 * 2 ^ 41 + 0x40001000, 8, false, ⟨0, 0⟩⟩], .data 7 false 3, 0⟩]
    gets := [⟨1, 9, 2 ^ 51 + 5 * 2 ^ 41 + 0x40001000, 8, none, []⟩]
    buffer := [⟨(2 ^ 51 + 5 * 2 ^ 41 + 0x40001000) / 64, false, [⟨some (1, 0x1000), [(0, 1)]⟩], ⟨0, 0⟩, some 9⟩] } }
  let s := peered.setTask 0 t
  { s with fab := { s.fab with reqs := [farReq p left] } }

/-- A read of second-tier memory that has been sent on group 4, whose link is UP or retrains; it reads a line of a sync page. -/
def secondTier (st : CapoState) (op : FarOp) (empty : Bool) : State :=
  let s := linked st (if st = .up then none else some false) 0
  { s with
    empties := if empty then [0x100000000000 / 64] else []
    fab := { s.fab with reqs := [⟨9, .engine 0, 0x1000, 0x100000000000, op, ⟨0, 0⟩, 4, false, false, 5, false⟩] } }

theorem witness_FarRequests :
    (let s := peered; let x := s.group (s.evenOf 4); x.ualink = true ∧ x.st = .up ∧ s.fab.inbound.answered = [] ∧
      s.fab.reqs = [] ∧ s.fab.notices = [] ∧ s.fab.inbound.queued = [] ∧ x.retry.length < 256 ∧
      s.farRefused 0x40000000 = false ∧ s.farRefused 0x18000000000 = true ∧ s.farRefused 0x17FFFFFFFFF = true ∧
      (s.reg (0x160200 + 8 * (5 / 64))).getLsbD (5 % 64) = true ∧
      (s.serve 0x40001000 (.read 8) noAlloc).isSome = true ∧
      (let t := ({ s with empties := [0x40001000 / 64] } : State); (t.serve 0x40001000 (.atomic 0x30 8 0 0) noAlloc).isNone = true ∧
        t.full 0x40001000 = false) ∧
      (let t := ({ s with fab := { s.fab with inbound := { s.fab.inbound with
          answered := [((5, 1), .done)], waiting := [inbound (.read 8) 0x40001000] } } } : State);
        t.fab.inbound.answered.find? (fun e => e.1 == (5, 1)) = some ((5, 1), .done) ∧ inbound (.read 8) 0x40001000 ∈ t.fab.inbound.waiting)) ∧
    (let s := asking (.load 0 1) 5; s.fab.reqs = [farReq (.load 0 1) 5] ∧ s.reqPkg (farReq (.load 0 1) 5) = some 5 ∧ (s.group 4).st = .up ∧
      ((s.task? 0).bind (fun t => t.q.loads.find? (fun a => a.seq == 1 && (t.live || a.fills)))).isSome = true ∧
      s.pathTo (farReq (.load 0 1) 5).addr = .ok (4, false)) ∧
    (let s := asking (.store 0) 0; s.fab.reqs = [farReq (.store 0) 0] ∧ ((s.task? 0).map (·.phase)) = some .ready ∧
      ((s.task? 0).bind (fun t => t.placeOf 9)).any (fun p => s.isRemote (p.line * 64)) = true) ∧
    (∀ e : Bool, let s := secondTier .up (.atomic 0x30 8 0 0) e; ∀ r ∈ s.fab.reqs, r.held = false ∧ (s.group r.group).st = .up ∧
      s.reqPkg r = none ∧ (s.serve r.addr r.op r.pol).isNone = e) ∧
    (let s := secondTier .retrain (.read 8) false; ∀ r ∈ s.fab.reqs, r.tag = 9 ∧ r.held = false ∧
      (s.group r.group).st = .retrain) := by
  refine ⟨by decide +kernel, ⟨by decide +kernel, by decide +kernel, by decide +kernel, by decide +kernel, ok_of_eq (by decide +kernel)⟩,
    by decide +kernel, by decide +kernel, by decide +kernel⟩

theorem witness_HostPort : demo.mgmt.hostUp = true ∧ 0x17FFFFFFFF8 + 8 ≤ 0x18000000000 ∧
    demo.bytesExist (0x12000000000 + 0xBFFF8) 8 = true ∧ demo.bytesExist (0x12000000000 + 0xBFFF8) 9 = false ∧
    (owned 2).mgmt.own.toNat / 16 % 4 = 2 ∧ demo.mgmt.own.toNat / 16 % 4 ≠ 2 ∧ demo.mgmt.own.getLsbD 8 = false ∧ Memory.wf demo.mem = true ∧
    ({ demo with mgmt := { demo.mgmt with hostUp := false } } : State).mgmt.hostUp = false ∧ 4 ≤ demo.mgmt.step ∧
    demo.mgmt.recovery = false ∧ demo.localAddr 0xFFFFFFFFF8 = 0xFFFFFFFFF8 ∧ rangeOf 0xFFFFFFFFF8 = .hbm ∧
    demo.addressable 0x10000000000 = false ∧ demo.bytesExist 0xFFFFFFFFF8 8 = true ∧ rangeOf (0x18000000000 + 0xFFFFFFF8) = .mgmt ∧
    rangeOf (demo.localAddr 0x18100000000) = .hole := by decide +kernel

/-- A region of tenant 0 at 0x40000000: one token, one layer, its exit record at 0x10000 (exit after block 0, hidden state at
0x10100), weights of zeros; a request for its one group, which has an empty line, and none under way. -/
def gleaning (st : Nat) : State :=
  let ws : List Word := [0x40000000, 0x40000080, 0, 0x8000010100000001, 0x10000, 0x11000, 0x0002004100400020, 0x7C00000000]
  let s := (((demo.store 0x40010000 (toLe 8 st ++ toLe 8 0x10100)).store 0x40011000 (toLe 8 0x20000 ++ toLe 8 0x20000 ++
    toLe 8 (2 ^ 32) ++ toLe 8 0x30000)).setDie 0 { demo.die 0 with fills := [.fill 0 0 1 0] })
  let s1 := (ws.zipIdx.foldl (fun s e => s.setReg (0x400000 + 8 * e.2) e.1) s)
  { s1.setEmpty 0x80000000 with cycle := 1000 }

/-- The Gleaner's entry with its last stripe, its group's records read, and the same machine with the array at it. -/
def lastStripe : Lease := { lease0 with holder := .gleaner 0, cmds := [gleanCmd 1 0] }
def served0 : Serving :=
  ⟨0, 0, 1, toLe 8 2 ++ toLe 8 0x10100, List.replicate 128 0, toLe 8 0x20000 ++ toLe 8 0x20000 ++ toLe 8 (2 ^ 32) ++ toLe 8 0x30000 ++
    List.replicate 32 0⟩
def gleaned : State :=
  let s := gleaning 2
  let t := s.setPlot 0 { s.plot 0 with leases := [(1, lastStripe)], running := some 1, began := some 0 }
  t.setDie 0 { t.die 0 with serving := some served0 }

theorem witness_GleanerEvents :
    (let s := gleaning 2; (s.die 0).fills = [.fill 0 0 1 0] ∧ s.groupLives 0 0 1 = true ∧ s.groupLives 0 1 1 = false ∧
      s.full 0x80000000 = false ∧ (s.plot 0).gleanerLease 0 = none ∧ (∀ r ∈ (s.plot 0).waiting, r.holder ≠ .gleaner 0)) ∧
    (let q := ((gleaned.plot 0).begin); gleaned.groupLives 0 0 1 = true ∧ q.gleanerLease 0 = some (1, lastStripe) ∧
      (gleanCmd 1 0).d + 1 = 2 * stripes (gleaned.regionField 0 6 16 16) ∧ q.running = some 1 ∧
      (gleaned.die 0).serving = some served0 ∧ ((gleaned.plot 0).gleanerLease 0).any (fun e => !e.2.cmds.isEmpty) = true ∧
      (gleaned.fillTargets (gleaned.gleaner 0 0) [] served0).toOption.any (fun r => r.1.length == 4 && r.1.all (·.bytes.length == 64) &&
        r.2.cycle == 1000) = true ∧
      q.turn 1000 (q.startOf (gleanCmd 1 0)) (stripeOcc 31 served0.wtag 32 64 1) true (.gleaner 0) = .done 0) ∧
    (let s := gleaning 2; (s.die 0).serving = none ∧
      (s.groupRecords (s.gleaner 0 0) [] 0 0 1).toOption.any (fun r => r.1 == some served0) = true) ∧
    (let s := gleaning 0; (s.groupRecords (s.gleaner 0 0) [] 0 0 1).toOption.any (fun r => r.1.isNone) = true) ∧
    (let t := { task0 with q := { task0.q with
        parked := [(1, (0x40000000, some 0))] } };
      let s := { demo.setTask 0 t with cycle := 4096 };
      s.task? 0 = some t ∧ t.q.parked = [(1, (0x40000000, some 0))] ∧ 0 + 4096 ≤ s.cycle) ∧
    (let s := (gleaning 0).setDie 0 { demo.die 0 with fills := [.glean 9 0 0 2 0x40000000 1 0] };
      s.task? 0 = some task0 ∧ ((s.checkAccess { plot := 0, tenant := 0, pl := 2 } .read 0x40000000 64).toOption.any
        (fun c => !c.pieces.isEmpty) = true) ∧ s.fillGroup 0 0x40000000 = some (0, 0, 1) ∧
        s.fillGroup 0 0x40000100 = none ∧ s.fillAsked 0 0 1 = false ∧ (s.enqueueFill 0 0 0 1).2 = true ∧ (s.die 0).fills.length < 256) := by decide +kernel
/-- The last port of die 3 with its full line, and a request of tenant 0 there: one draft, 7, and the targets 7 and 8, and a
result word in the sync page. -/
def accepting (draft : Nat) (ctl : Nat) : State :=
  let w (s : State) (a : Nat) (ws : List Nat) : State := s.store a (ws.flatMap (toLe 8))
  let s := w (w (w (w demo 0x40010000 [0x11000, 0x12000, 0x13000, 0x40000000, ctl]) 0x40011000
    [0x40001000, 0x40002000, 64 + 9 * 2 ^ 32, 0]) 0x40012000 [draft]) 0x40013000 [2 ^ 63 + 7, 2 ^ 63 + 8]
  ((w s 0x40020000 [0x10000]).setReg 0x4130F0 0x8000000040020000).setReg 0x4130F8 0

theorem witness_AcceptanceEvents :
    (let s := accepting 7 1; (s.port 3 15).1.getLsbD 63 = true ∧ s.full 0x40020000 = true ∧ (s.die 3).taken = [] ∧
      (s.port 3 0).1.getLsbD 63 = false ∧ (s.die 3).nextPort < 16) ∧
    (let s := (accepting 7 1).takePort 3 15; s.nextRequest 3 [] = some ⟨15, 0, 0x10000⟩ ∧ s.full 0x40020000 = false ∧
      ({ s.die 3 with nextPort := 15 } : Die).taken.find? (fun q => q.port == 15) = some ⟨15, 0, 0x10000⟩) ∧
    (demo.engRead { plot := 96, tenant := 0, pl := 0 } [] 0x8000000000 64 true).toOption.isNone = true ∧
    (∀ e ∈ [(7, 1), (6, 0)], let s := accepting e.1 1; let w : Who := { plot := 96, tenant := 0, pl := 0 };
      (match s.engRead w [] 0x10000 64 true with
        | .ok (r, s1) => (match s1.readAcceptance w [] r with
          | .ok (a, s2) => accepted a.drafts a.targets == e.2 && (s2.commitSlots w [] a e.2).toOption.isSome
          | .error _ => false)
        | .error _ => false) = true) ∧
    (let s := accepting 7 0; let w : Who := { plot := 96, tenant := 0, pl := 0 };
      (match s.engRead w [] 0x10000 64 true with
        | .ok (r, s1) => (s1.readAcceptance w [] r).toOption.isNone
        | .error _ => false) = true) ∧
    (let w : Who := { plot := 96, tenant := 0, pl := 0 };
      ((demo.engTarget w [] true 0x40000038 8).toOption.map (·.1)) = some [⟨0x80000038, 8, true, ⟨0, 0⟩⟩] ∧
        (0x40000039 : Word).toNat % 8 ≠ 0) ∧
    accepted [7] [0x8000000000000007, 0x8000000000000008] = 1 := by decide +kernel

/-- `demo` with a pending handover to the host. -/
def handing (at_ : Nat) : State := { demo with cycle := at_, mgmt := { demo.mgmt with own := 0x90 } }

theorem witness_Ownership :
    (∀ n ∈ [0, 1, 2, 3], (owned n).mgmt.own.toNat / 16 % 4 = n) ∧ demo.mgmt.overtemp = false ∧ demo.mgmt.recovery = false ∧
    demo.mgmt.step = 7 ∧
    ((handing 2700000000).mgmt.own.toNat / 64 % 4 = 2 ∧ (handing 0).mgmt.own.toNat / 16 % 4 = 1 ∧
      (handing 2700000000).mgmt.pendSince + 2700000000 ≤ (handing 2700000000).cycle ∧
      (handing 2699999999).cycle < (handing 0).mgmt.pendSince + 2700000000) ∧
    (let s := { owned 3 with cycle := 9, mgmt := { (owned 3).mgmt with claim := some (5, [], [], 0) } };
      s.mgmt.claim = some (s.cycle * 5 / 9, [], [], 0) ∧ 2 < s.mgmt.own.toNat / 16 % 4) ∧
    (let s := { owned 1 with cycle := 5400000000 }; s.mgmt.heartbeatAt + 5400000000 ≤ s.cycle ∧ s.mgmt.own.toNat / 16 % 4 = 1) := by
  decide +kernel

/-- `demo` with bytes in the configuration buffer, in recovery or not. -/
def storingCfg (n : Nat) (recovery : Bool) : State :=
  (demo.setReg 0x21000 (BitVec.ofNat 64 n)).setTask 0 task0 |> fun s => { s with mgmt := { s.mgmt with
    recovery := recovery, own := 16, storing := none } }

theorem witness_Configuration : Allowed demo .core ∧ ¬ Allowed demo (.master .host) ∧ demo.mgmt.log.length < 1024 ∧
    1024 ≤ ({ demo with mgmt := { demo.mgmt with log := List.replicate 1024 ⟨1, 0, 0, []⟩ } } : State).mgmt.log.length ∧
    (List.replicate 64 (7 : Byte)).length = 64 ∧
    (∀ n ∈ [63, 64, 32768, 32769], ((storingCfg n false).reg 0x21000).toNat = n ∧ (storingCfg n false).mgmt.storing = none) ∧
    ((storingCfg 64 true).mgmt.recovery = true ∧ (storingCfg 64 true).mgmt.own.toNat / 16 % 4 = 1) ∧
    (∀ b : Bool, ({ demo with mgmt := { demo.mgmt with storing := some (b, [1]) } } : State).mgmt.storing = some (b, [1])) :=
  ⟨allowed_core, refused_host, by decide +kernel⟩

/-- Signatures and the layout of a record are free (log entry 7): where there is a signed record at all, a machine that holds
it in both slots of non-volatile memory brings itself up with it. -/
theorem witness_ResetsAndClock_signed (img : List Byte) (r : CfgRec) (hs : Config.recordSigned img = true)
    (hr : Config.parseRecord img = some r) : ∃ s : State, s.cleared.chosen = some (false, { r with version := Config.recordVersion img }, img) ∧
      s.chosen = some (false, { r with version := Config.recordVersion img }, img) := by
  refine ⟨{ demo with mgmt := { demo.mgmt with nvA := img, nvB := img, rollback := Config.recordVersion img } }, ?_, ?_⟩ <;>
    simp [State.chosen, State.cleared, State.recordUsable, hs, hr]

/-- Whatever records are, a machine whose anti-rollback counter stands above theirs uses none. -/
theorem witness_ResetsAndClock_unsigned : ∃ s : State, s.cleared.chosen = none ∧ s.chosen = none := by
  refine ⟨{ demo with mgmt := { demo.mgmt with nvA := [], nvB := [], rollback := Config.recordVersion [] + 1 } }, ?_, ?_⟩ <;>
    cases h : Config.parseRecord [] <;> simp [State.chosen, State.cleared, State.recordUsable, h, show ∀ k : Nat, ¬ k + 1 ≤ k by omega]

theorem witness_ResetsAndClock :
    (owned 1).mgmt.own.toNat / 16 % 4 = 1 ∧ demo.mgmt.own.toNat / 16 % 4 = 0 ∧
    (let s := { owned 1 with mgmt := { (owned 1).mgmt with recovery := true } }; s.mgmt.recovery = true) ∧
    (0x52535400 : Word) ≠ 0 := by decide +kernel

end Sys2Proof.Tests
end

section
/-! PROOFS. The statements about the scalar forms and the jumps (05_scalar_address_control), with the facts that they need. -/

namespace Sys2Proof.Machine

/-! ## The frame of a syllable: what it keeps, and how it stops -/

theorem Kept.regs {s t : State} (h : Kept s t) : t.stage.regs = s.stage.regs := by
  obtain ⟨p, a, hp⟩ := h.stage
  rw [hp]

/-- The sources of a ready syllable are the registers of the bundle's first issue cycle (R64), charged or not. -/
theorem Ready.src_regs {c : Cls} {opc : Nat} {x : Syl} {g : Args} {s s1 : State} (h : Ready c opc x g s s1) :
    (s1.charged c opc).src.regs = s.stage.regs :=
  (Kept.pay s1 _ _).regs.trans h.regs

/-- A ready syllable passes the check of its slot. -/
theorem Ready.checkSlot {c : Cls} {opc : Nat} {x : Syl} {g : Args} {s s1 : State} (h : Ready c opc x g s s1) :
    ∃ w, s.checkSlot s.cur c opc x = .ok w := by
  unfold State.checkSlot
  rcases h.fits with ⟨hc, hd⟩ | ⟨hc, w, hw⟩
  · exact ⟨Need.zero, by rw [if_pos hc, if_neg hd]⟩
  · exact ⟨w, by rw [if_neg (by simp [hc]), hw]⟩

/-- A ready syllable whose act answers a stop leaves the machine before its slot and stops there (R68). -/
theorem Ready.run_error {c : Cls} {opc : Nat} {x : Syl} {g : Args} {s s1 : State} (h : Ready c opc x g s s1)
    {act : Args → State → Except Stop State} {e : Stop} (ha : act g (s1.charged c opc) = .error e) :
    Machine.run c opc x plain act s =
      .next ((s.owe e ((s1.costOf c opc Cost.plain).units, 0)).stop e (wordOf opc x)) := by
  obtain ⟨t, ht⟩ := Option.ne_none_iff_exists'.mp h.onStage
  have hcur : s.cur = t := by simp [State.cur, ht]
  obtain ⟨w, hw⟩ := h.checkSlot
  have hact : act g (s1.pay (s1.costOf c opc Cost.plain).units 0) = .error e := ha
  simp only [Machine.run, runWait, runUnits, ht, h.guard, ← hcur, hw, h.operands, noWait, plain, hact, wordOf,
    Bool.not_true, Bool.false_eq_true, if_false, ite_self]

/-! ## Forms that write one register -/

/-- A form that starts the value of a function writes every value that equals it. -/
theorem writesS_of_run {c : Cls} {opc lat : Nat} {i : Syl → Instr} {P : Syl → Args → Regs → Word → Prop}
    (f : Syl → Args → Task → Word)
    (hi : ∀ x s, exec (i x) s = run c opc x plain (fun g s => s.putS x.a lat (f x g s.src)) s)
    (hf : ∀ x g t v, P x g t.regs v → f x g t = v) : WritesS c opc lat i P := by
  intro x g s s1 v s2 h hP hput
  have hv : f x g (s1.charged c opc).src = v := hf x g _ v (h.src_regs ▸ hP)
  rw [hi]
  exact h.run (by rw [hv, hput])

theorem writesS_of_sForm {opc lat : Nat} {i : Syl → Instr} {f : Syl → Args → Task → Word}
    {P : Syl → Args → Regs → Word → Prop} (hi : ∀ x s, exec (i x) s = sForm opc lat x (f x) s)
    (hf : ∀ x g t v, P x g t.regs v → f x g t = v) : WritesS .S opc lat i P :=
  writesS_of_run f hi hf

/-- A form that starts the truth value of a function writes the predicate of that value. -/
theorem writesP_of_pForm {opc lat : Nat} {i : Syl → Instr} {f : Syl → Args → Task → Bool}
    {P : Syl → Args → Regs → Prop} (hi : ∀ x s, exec (i x) s = pForm opc lat x (f x) s)
    (hf : ∀ x g t, f x g t = true ↔ P x g t.regs) : WritesP .S opc lat i P := by
  intro x g s s1 b h hb
  have hv : f x g (s1.charged .S opc).src = b := by
    rw [Bool.eq_iff_iff, hf, h.src_regs, hb]
  rw [hi, pForm]
  exact h.run (by rw [hv])

/-! ## Words -/

theorem testBit_getBits (w : Word) (lo n i : Nat) :
    (getBits w lo n).testBit i = (decide (i < n) && w.getLsbD (lo + i)) := by
  rw [getBits, bitsOf, Nat.testBit_mod_two_pow, Nat.testBit_div_two_pow, BitVec.testBit_toNat, Nat.add_comm]

theorem getBits_zero_lo (w : Word) (n : Nat) : getBits w 0 n = w.toNat % 2 ^ n := by
  simp [getBits, bitsOf]

theorem getLsbD_ofNat_getBits {w : Word} {lo n i : Nat} (hi : i < 64) :
    (BitVec.ofNat 64 (getBits w lo n)).getLsbD i = (decide (i < n) && w.getLsbD (lo + i)) := by
  simp only [BitVec.getLsbD_ofNat, testBit_getBits, hi, decide_true, Bool.true_and]

/-- The bits of a word with a field written: the field's from the value, the others from the word. -/
theorem getLsbD_putBits {w : Word} {lo n v i : Nat} (hi : i < 64) :
    (putBits w lo n v).getLsbD i = if lo ≤ i ∧ i < lo + n then v.testBit (i - lo) else w.getLsbD i := by
  simp only [putBits, BitVec.getLsbD_or, BitVec.getLsbD_and, BitVec.getLsbD_not, BitVec.getLsbD_ofNat,
    Nat.testBit_mul_two_pow, Nat.testBit_two_pow_sub_one, Nat.testBit_mod_two_pow, hi, decide_true, Bool.true_and]
  by_cases h : lo ≤ i ∧ i < lo + n
  · have : i - lo < n := by omega
    simp [h, this]
  · rw [if_neg h]
    by_cases hl : lo ≤ i
    · have : ¬ i - lo < n := by omega
      simp [this]
    · simp [hl]

theorem ofInt_toInt_sub (x y : Word) : BitVec.ofInt 64 (x.toInt - y.toInt) = x - y := by
  apply BitVec.eq_of_toInt_eq
  rw [BitVec.toInt_ofInt, BitVec.toInt_sub]

theorem getLsbD_compl {i : Nat} (w : Word) (hi : i < 64) : (~~~w).getLsbD i = !w.getLsbD i := by
  rw [BitVec.getLsbD_not, decide_eq_true hi, Bool.true_and]

/-- The high half of a signed product is the one quotient by 2^64 that fits a word. -/
theorem eq_mulh {a b v : Word} (hlo : v.toInt * 2 ^ 64 ≤ a.toInt * b.toInt)
    (hhi : a.toInt * b.toInt < (v.toInt + 1) * 2 ^ 64) : BitVec.ofInt 64 (a.toInt * b.toInt / 2 ^ 64) = v := by
  have hq : a.toInt * b.toInt / 2 ^ 64 = v.toInt :=
    (Int.ediv_eq_iff_of_pos (by decide)).mpr ⟨hlo, by rw [Int.add_mul, Int.one_mul] at hhi; exact hhi⟩
  rw [hq, BitVec.ofInt_toInt]

/-- The same of an unsigned product. -/
theorem eq_mulhu {a b v : Word} (hlo : v.toNat * 2 ^ 64 ≤ a.toNat * b.toNat)
    (hhi : a.toNat * b.toNat < (v.toNat + 1) * 2 ^ 64) : BitVec.ofNat 64 (a.toNat * b.toNat / 2 ^ 64) = v := by
  have hq : a.toNat * b.toNat / 2 ^ 64 = v.toNat :=
    Nat.div_eq_of_lt_le hlo hhi
  rw [hq, BitVec.ofNat_toNat, BitVec.setWidth_eq]

theorem ofNat_eq_of_toNat {v : Word} {n : Nat} (h : v.toNat = n % 2 ^ 64) : BitVec.ofNat 64 n = v :=
  BitVec.eq_of_toNat_eq (by rw [BitVec.toNat_ofNat, h])

/-- Sign extension from a bit is that of the word cut there. -/
theorem signExtendFrom_eq (c : Nat) (w : Word) : signExtendFrom c w = (w.setWidth (c + 1)).signExtend 64 := by
  have hpow : 2 ^ (c + 1) = 2 * 2 ^ c := by rw [Nat.pow_succ, Nat.mul_comm]
  rw [signExtendFrom, BitVec.signExtend, BitVec.toInt_eq_toNat_cond, BitVec.toNat_setWidth, signed, Nat.add_sub_cancel]
  congr 1
  by_cases h : w.toNat % 2 ^ (c + 1) < 2 ^ c
  · rw [if_pos h, if_pos (by omega)]
  · rw [if_neg h, if_neg (by omega)]
    push_cast
    rfl

theorem getLsbD_signExtendFrom {c i : Nat} (w : Word) (hi : i < 64) :
    (signExtendFrom c w).getLsbD i = w.getLsbD (min i c) := by
  rw [signExtendFrom_eq, BitVec.getLsbD_signExtend]
  by_cases h : i < c + 1
  · rw [Nat.min_eq_left (by omega)]
    simp [hi, h]
  · rw [Nat.min_eq_right (by omega)]
    simp [hi, h, BitVec.msb_eq_getLsbD_last]

theorem toInt_min (a b : Word) : (if a.slt b then a else b).toInt = min a.toInt b.toInt := by
  split <;> rename_i h <;> rw [BitVec.slt_iff_toInt_lt] at h <;> omega

theorem toInt_max (a b : Word) : (if a.slt b then b else a).toInt = max a.toInt b.toInt := by
  split <;> rename_i h <;> rw [BitVec.slt_iff_toInt_lt] at h <;> omega

theorem toNat_min (a b : Word) : (if a.ult b then a else b).toNat = min a.toNat b.toNat := by
  split <;> rename_i h <;> rw [BitVec.ult_iff_toNat_lt] at h <;> omega

theorem toNat_max (a b : Word) : (if a.ult b then b else a).toNat = max a.toNat b.toNat := by
  split <;> rename_i h <;> rw [BitVec.ult_iff_toNat_lt] at h <;> omega

theorem toInt_sar (w : Word) (n : Nat) : (w.sshiftRight n).toInt = w.toInt / 2 ^ n := by
  rw [BitVec.toInt_sshiftRight, Int.shiftRight_eq_div_pow]
  push_cast
  rfl

/-- A left rotation moves bit `i` up by its amount, around the word. -/
theorem getLsbD_rol {w : Word} {n i : Nat} (hn : n < 64) (hi : i < 64) :
    (w.rotateLeft n).getLsbD ((i + n) % 64) = w.getLsbD i := by
  rw [BitVec.getLsbD_rotateLeft, Nat.mod_eq_of_lt hn]
  by_cases h : i + n < 64
  · rw [Nat.mod_eq_of_lt h]
    simp [show ¬ i + n < n by omega, h]
  · have hm : (i + n) % 64 = i + n - 64 := by omega
    rw [hm]
    simp [show i + n - 64 < n by omega, show 64 - n + (i + n - 64) = i by omega]

/-- A right rotation takes bit `i` from as far above it, around the word. -/
theorem getLsbD_ror {w : Word} {n i : Nat} (hn : n < 64) (hi : i < 64) :
    (w.rotateRight n).getLsbD i = w.getLsbD ((i + n) % 64) := by
  rw [BitVec.getLsbD_rotateRight, Nat.mod_eq_of_lt hn]
  by_cases h : i + n < 64
  · rw [Nat.mod_eq_of_lt h, Nat.add_comm]
    simp [show i < 64 - n by omega]
  · have hm : (i + n) % 64 = i - (64 - n) := by omega
    simp [show ¬ i < 64 - n by omega, hi, hm]

/-- A word is given by its bits taken around from any of them. -/
theorem eq_of_getLsbD_around {v w : Word} {n : Nat} (hn : n < 64)
    (h : ∀ i, i < 64 → v.getLsbD ((i + n) % 64) = w.getLsbD ((i + n) % 64)) : v = w := by
  apply BitVec.eq_of_getLsbD_eq
  intro j hj
  have hback : ((j + 64 - n) % 64 + n) % 64 = j := by omega
  have := h ((j + 64 - n) % 64) (by omega)
  rwa [hback] at this

/-! ## Counts -/

/-- The first number below `n` where a property holds, `n` where it holds nowhere. -/
theorem getD_find?_range {n k : Nat} {p : Nat → Bool} (hk : k ≤ n) (hlow : ∀ i, i < k → p i = false)
    (hat : k < n → p k = true) : ((List.range n).find? p).getD n = k := by
  by_cases h : k < n
  · have hf : (List.range n).find? p = some k :=
      List.find?_range_eq_some.mpr ⟨hat h, List.mem_range.mpr h, fun i hi => by simp [hlow i hi]⟩
    rw [hf, Option.getD_some]
  · have hf : (List.range n).find? p = none :=
      List.find?_range_eq_none.mpr fun i hi => by simp [hlow i (by omega)]
    rw [hf, Option.getD_none]
    omega

theorem leadingZeros_eq (w : Word) :
    leadingZeros w = ((List.range 64).find? (fun i => w.getLsbD (63 - i))).getD 64 := by
  unfold leadingZeros
  split <;> simp [*]

theorem trailingZeros_eq (w : Word) : trailingZeros w = ((List.range 64).find? w.getLsbD).getD 64 := by
  unfold trailingZeros
  split <;> simp [*]

/-! ## The meanings of the scalar instructions -/

theorem exec_add (x : Syl) (s : State) : exec (.add x) s = execAdd x s := rfl
theorem exec_sub (x : Syl) (s : State) : exec (.sub x) s = execSub x s := rfl
theorem exec_mul (x : Syl) (s : State) : exec (.mul x) s = execMul x s := rfl
theorem exec_mulh (x : Syl) (s : State) : exec (.mulh x) s = execMulh x s := rfl
theorem exec_mulhu (x : Syl) (s : State) : exec (.mulhu x) s = execMulhu x s := rfl
theorem exec_shadd (x : Syl) (s : State) : exec (.shadd x) s = execShadd x s := rfl
theorem exec_sext (x : Syl) (s : State) : exec (.sext x) s = execSext x s := rfl
theorem exec_zext (x : Syl) (s : State) : exec (.zext x) s = execZext x s := rfl
theorem exec_min (x : Syl) (s : State) : exec (.min x) s = execMin x s := rfl
theorem exec_minu (x : Syl) (s : State) : exec (.minu x) s = execMinu x s := rfl
theorem exec_max (x : Syl) (s : State) : exec (.max x) s = execMax x s := rfl
theorem exec_maxu (x : Syl) (s : State) : exec (.maxu x) s = execMaxu x s := rfl
theorem exec_lea (x : Syl) (s : State) : exec (.lea x) s = execLea x s := rfl
theorem exec_and (x : Syl) (s : State) : exec (.and x) s = execAnd x s := rfl
theorem exec_or (x : Syl) (s : State) : exec (.or x) s = execOr x s := rfl
theorem exec_xor (x : Syl) (s : State) : exec (.xor x) s = execXor x s := rfl
theorem exec_andn (x : Syl) (s : State) : exec (.andn x) s = execAndn x s := rfl
theorem exec_orn (x : Syl) (s : State) : exec (.orn x) s = execOrn x s := rfl
theorem exec_shl (x : Syl) (s : State) : exec (.shl x) s = execShl x s := rfl
theorem exec_shr (x : Syl) (s : State) : exec (.shr x) s = execShr x s := rfl
theorem exec_sar (x : Syl) (s : State) : exec (.sar x) s = execSar x s := rfl
theorem exec_rol (x : Syl) (s : State) : exec (.rol x) s = execRol x s := rfl
theorem exec_ror (x : Syl) (s : State) : exec (.ror x) s = execRor x s := rfl
theorem exec_bext (x : Syl) (s : State) : exec (.bext x) s = execBext x s := rfl
theorem exec_bins (x : Syl) (s : State) : exec (.bins x) s = execBins x s := rfl
theorem exec_clz (x : Syl) (s : State) : exec (.clz x) s = execClz x s := rfl
theorem exec_ctz (x : Syl) (s : State) : exec (.ctz x) s = execCtz x s := rfl
theorem exec_popc (x : Syl) (s : State) : exec (.popc x) s = execPopc x s := rfl
theorem exec_mov (x : Syl) (s : State) : exec (.mov x) s = execMov x s := rfl
theorem exec_li (x : Syl) (s : State) : exec (.li x) s = execLi x s := rfl
theorem exec_sel (x : Syl) (s : State) : exec (.sel x) s = execSel x s := rfl
theorem exec_cmpeq (x : Syl) (s : State) : exec (.cmpeq x) s = execCmpeq x s := rfl
theorem exec_cmpne (x : Syl) (s : State) : exec (.cmpne x) s = execCmpne x s := rfl
theorem exec_cmplt (x : Syl) (s : State) : exec (.cmplt x) s = execCmplt x s := rfl
theorem exec_cmpltu (x : Syl) (s : State) : exec (.cmpltu x) s = execCmpltu x s := rfl
theorem exec_cmple (x : Syl) (s : State) : exec (.cmple x) s = execCmple x s := rfl
theorem exec_cmpleu (x : Syl) (s : State) : exec (.cmpleu x) s = execCmpleu x s := rfl
theorem exec_pand (x : Syl) (s : State) : exec (.pand x) s = execPand x s := rfl
theorem exec_por (x : Syl) (s : State) : exec (.por x) s = execPor x s := rfl
theorem exec_pxor (x : Syl) (s : State) : exec (.pxor x) s = execPxor x s := rfl
theorem exec_pandn (x : Syl) (s : State) : exec (.pandn x) s = execPandn x s := rfl

/-! ## Fields -/

/-- The FEM bits of a form follow from the kinds of its fields (R62). -/
theorem kinds_and_fem {c : Cls} {opc : Nat} {ks : List Kind} {fs : List Bool} (hk : kindsOf c opc = ks)
    (hf : ks.map Kind.fem = fs) : kindsOf c opc = ks ∧ (kindsOf c opc).map Kind.fem = fs :=
  ⟨hk, hk ▸ hf⟩

/-- The fields of a range of opcodes, from those of its `n` members. -/
theorem kindsOf_range {c : Cls} {lo n opc : Nat} {ks : List Kind} (hall : ∀ d, d < n → kindsOf c (lo + d) = ks)
    (hlo : lo ≤ opc) (hhi : opc < lo + n) : kindsOf c opc = ks := by
  rw [← Nat.add_sub_of_le hlo]
  exact hall (opc - lo) (by omega)

/-! ## The scalar forms (R94 to R101) -/

/-- Settles O1: each form is one of `sForm` (`lea` one of the A slot), and its row determines the value that it starts. -/
theorem scalarOperations : Obligations.ScalarOperations := by
  unfold Obligations.ScalarOperations
  refine ⟨⟨?add, ?sub, ?mul, ?mulh, ?mulhu, ?shadd, ?sext, ?zext, ?min, ?minu, ?max, ?maxu, ?lea⟩,
    ⟨?kinds, ?and, ?or, ?xor, ?andn, ?orn, ?shl, ?shr, ?sar, ?rol, ?ror, ?bext, ?bins⟩,
    ⟨?movKinds, ?mov, ?li, ?sel⟩⟩
  case add =>
    exact writesS_of_sForm exec_add fun _ g _ v hv => by rw [hv, BitVec.ofInt_add, BitVec.ofInt_toInt, BitVec.ofInt_toInt]
  case sub => exact writesS_of_sForm exec_sub fun _ g _ v hv => by rw [hv, ofInt_toInt_sub]
  case mul =>
    exact writesS_of_sForm exec_mul fun _ g _ v hv => by rw [hv, BitVec.ofInt_mul, BitVec.ofInt_toInt, BitVec.ofInt_toInt]
  case mulh => exact writesS_of_sForm exec_mulh fun _ g _ v ⟨hlo, hhi⟩ => eq_mulh hlo hhi
  case mulhu => exact writesS_of_sForm exec_mulhu fun _ g _ v ⟨hlo, hhi⟩ => eq_mulhu hlo hhi
  case shadd => exact writesS_of_sForm exec_shadd fun _ g _ v hv => ofNat_eq_of_toNat hv
  case sext =>
    exact writesS_of_sForm exec_sext fun _ g _ v ⟨_, hv⟩ => BitVec.eq_of_getLsbD_eq fun i hi => by
      rw [getLsbD_signExtendFrom _ hi, hv i hi]
  case zext =>
    exact writesS_of_sForm exec_zext fun _ g _ v hv => BitVec.eq_of_getLsbD_eq fun i hi => by
      rw [getLsbD_ofNat_getBits hi, hv i hi, Nat.zero_add]
      simp only [Nat.lt_succ_iff]
  case min => exact writesS_of_sForm exec_min fun _ g _ v hv => BitVec.eq_of_toInt_eq (by rw [hv, toInt_min])
  case minu => exact writesS_of_sForm exec_minu fun _ g _ v hv => BitVec.eq_of_toNat_eq (by rw [hv, toNat_min])
  case max => exact writesS_of_sForm exec_max fun _ g _ v hv => BitVec.eq_of_toInt_eq (by rw [hv, toInt_max])
  case maxu => exact writesS_of_sForm exec_maxu fun _ g _ v hv => BitVec.eq_of_toNat_eq (by rw [hv, toNat_max])
  case lea =>
    exact writesS_of_run (fun x g _ => BitVec.ofNat 64 (g.b.w.toNat + g.e.w.toNat * 2 ^ x.d.toNat)) exec_lea
      fun _ g _ v hv => ofNat_eq_of_toNat hv
  case kinds => exact fun opc hlo hhi => kinds_and_fem (kindsOf_range (n := 10) (by decide) hlo (by omega)) rfl
  case and =>
    exact writesS_of_sForm exec_and fun _ g _ v hv => BitVec.eq_of_getLsbD_eq fun i hi => by
      rw [hv i hi, BitVec.getLsbD_and]
  case or =>
    exact writesS_of_sForm exec_or fun _ g _ v hv => BitVec.eq_of_getLsbD_eq fun i hi => by
      rw [hv i hi, BitVec.getLsbD_or]
  case xor =>
    exact writesS_of_sForm exec_xor fun _ g _ v hv => BitVec.eq_of_getLsbD_eq fun i hi => by
      rw [hv i hi, BitVec.getLsbD_xor]
  case andn =>
    exact writesS_of_sForm exec_andn fun _ g _ v hv => BitVec.eq_of_getLsbD_eq fun i hi => by
      rw [hv i hi, BitVec.getLsbD_and, getLsbD_compl _ hi]
  case orn =>
    exact writesS_of_sForm exec_orn fun _ g _ v hv => BitVec.eq_of_getLsbD_eq fun i hi => by
      rw [hv i hi, BitVec.getLsbD_or, getLsbD_compl _ hi]
  case shl =>
    exact writesS_of_sForm exec_shl fun _ g _ v hv => BitVec.eq_of_toNat_eq (by
      rw [hv, BitVec.toNat_shiftLeft, Nat.shiftLeft_eq])
  case shr =>
    exact writesS_of_sForm exec_shr fun _ g _ v hv => BitVec.eq_of_toNat_eq (by
      rw [hv, BitVec.toNat_ushiftRight, Nat.shiftRight_eq_div_pow])
  case sar => exact writesS_of_sForm exec_sar fun _ g _ v hv => BitVec.eq_of_toInt_eq (by rw [hv, toInt_sar])
  case rol =>
    exact writesS_of_sForm exec_rol fun _ g _ v hv => eq_of_getLsbD_around (Nat.mod_lt _ (by decide)) fun i hi => by
      rw [getLsbD_rol (Nat.mod_lt _ (by decide)) hi, hv i hi]
  case ror =>
    exact writesS_of_sForm exec_ror fun _ g _ v hv => BitVec.eq_of_getLsbD_eq fun i hi => by
      rw [getLsbD_ror (Nat.mod_lt _ (by decide)) hi, hv i hi]
  case bext =>
    exact writesS_of_sForm exec_bext fun _ g _ v hv => BitVec.eq_of_getLsbD_eq fun i hi => by
      rw [getLsbD_ofNat_getBits hi, hv i hi]
  case bins =>
    exact writesS_of_sForm exec_bins fun _ g _ v hv => BitVec.eq_of_getLsbD_eq fun i hi => by
      rw [getLsbD_putBits hi, hv i hi, BitVec.testBit_toNat]
  case movKinds => exact ⟨rfl, rfl, rfl, rfl, rfl, rfl⟩
  case mov => exact writesS_of_sForm exec_mov fun _ _ _ _ hv => hv.symm
  case li => exact writesS_of_sForm exec_li fun _ _ _ _ hv => hv.symm
  case sel => exact writesS_of_sForm exec_sel fun _ _ _ _ hv => hv.symm

/-- Settles O2: `clz` and `ctz` look for the first set bit from their end, and `popc` counts the set bits. -/
theorem scalarCounts : Obligations.ScalarCounts := by
  unfold Obligations.ScalarCounts
  refine ⟨?kinds, ?clz, ?ctz, ?popc⟩
  case kinds =>
    rintro opc (rfl | rfl | rfl) <;> exact kinds_and_fem rfl rfl
  case clz =>
    exact writesS_of_sForm exec_clz fun _ g _ v ⟨hle, hlow, hat⟩ => by
      rw [leadingZeros_eq, getD_find?_range hle hlow hat, BitVec.ofNat_toNat, BitVec.setWidth_eq]
  case ctz =>
    exact writesS_of_sForm exec_ctz fun _ g _ v ⟨hle, hlow, hat⟩ => by
      rw [trailingZeros_eq, getD_find?_range hle hlow hat, BitVec.ofNat_toNat, BitVec.setWidth_eq]
  case popc =>
    exact writesS_of_sForm exec_popc fun _ g _ v hv => by
      rw [popCount, ← List.countP_eq_length_filter, ← hv, BitVec.ofNat_toNat, BitVec.setWidth_eq]

/-- Settles O3: each form is one of `pForm`, and its test is the relation of its row. -/
theorem scalarPredicates : Obligations.ScalarPredicates := by
  unfold Obligations.ScalarPredicates
  refine ⟨?cmpKinds, ?logicKinds, ?readP0, ?writeP0, ?cmpeq, ?cmpne, ?cmplt, ?cmpltu, ?cmple, ?cmpleu,
    ?pand, ?por, ?pxor, ?pandn⟩
  case cmpKinds => exact fun opc hlo hhi => kinds_and_fem (kindsOf_range (n := 6) (by decide) hlo (by omega)) rfl
  case logicKinds => exact fun opc hlo hhi => kinds_and_fem (kindsOf_range (n := 4) (by decide) hlo (by omega)) rfl
  case readP0 => exact fun _ => rfl
  case writeP0 => exact fun _ _ => if_pos rfl
  case cmpeq => exact writesP_of_pForm exec_cmpeq fun _ _ _ => beq_iff_eq
  case cmpne => exact writesP_of_pForm exec_cmpne fun _ _ _ => bne_iff_ne
  case cmplt => exact writesP_of_pForm exec_cmplt fun _ _ _ => BitVec.slt_iff_toInt_lt
  case cmpltu => exact writesP_of_pForm exec_cmpltu fun _ _ _ => BitVec.ult_iff_toNat_lt
  case cmple => exact writesP_of_pForm exec_cmple fun _ _ _ => BitVec.sle_iff_toInt_le
  case cmpleu => exact writesP_of_pForm exec_cmpleu fun _ _ _ => BitVec.ule_iff_toNat_le
  case pand => exact writesP_of_pForm exec_pand fun _ _ _ => Bool.and_eq_true_iff
  case por => exact writesP_of_pForm exec_por fun _ _ _ => Bool.or_eq_true_iff
  case pxor => exact writesP_of_pForm exec_pxor fun _ _ _ => bne_iff_ne
  case pandn =>
    exact writesP_of_pForm exec_pandn fun _ _ _ => by rw [Bool.and_eq_true_iff, Bool.not_eq_true']

end Sys2Proof.Machine

end

section
/-! PROOFS. Branches, calls and table jumps. -/

namespace Sys2Proof.Machine

/-! ## Forms with an effect of their own -/

/-- A form whose act succeeds with each effect that `E` allows has that effect. -/
theorem acts_of_run {c : Cls} {opc : Nat} {i : Syl → Instr} {E : Syl → Args → State → State → Prop}
    {act : Syl → Args → State → Except Stop State} (hi : ∀ x s, exec (i x) s = run c opc x plain (act x) s)
    (hact : ∀ x g s s', E x g s s' → act x g s = .ok s') : Acts c opc i E := by
  intro x g s s1 s2 h hE
  rw [hi]
  exact h.run (hact x g _ s2 hE)

/-- A form whose act answers `e` wherever `P` holds stops there. -/
theorem stops_of_run {c : Cls} {opc : Nat} {i : Syl → Instr} {P : Syl → Args → State → Prop} {e : Stop}
    {act : Syl → Args → State → Except Stop State} (hi : ∀ x s, exec (i x) s = run c opc x plain (act x) s)
    (hact : ∀ x g s, P x g s → act x g s = .error e) : Stops c opc i P e := by
  intro x g s s1 h hP
  rw [hi]
  exact h.run_error (hact x g _ hP)

/-! ## Writing a result leaves the pc of its task alone -/

/-- A change of any task that keeps its pc keeps that of the task on the stage. -/
theorem State.cur_pc_onTask (s : State) (uid : Nat) {f : Task → Task} (hf : ∀ t, (f t).pc = t.pc) :
    (s.onTask uid f).cur.pc = s.cur.pc := by
  unfold State.cur
  rw [State.onTask_stage]
  by_cases hu : s.stage.uid = uid
  · rw [hu, State.task?_onTask_self]
    cases s.task? uid with
    | none => rfl
    | some t => exact hf t
  · rw [State.task?_onTask_ne s hu]

theorem State.cur_pc_onCur (s : State) {f : Task → Task} (hf : ∀ t, (f t).pc = t.pc) :
    (s.onCur f).cur.pc = s.cur.pc := s.cur_pc_onTask _ hf

theorem State.cur_pc_pay (s : State) (bi bm : Nat) : (s.pay bi bm).cur.pc = s.cur.pc :=
  s.cur_pc_onCur fun _ => rfl

theorem State.cur_pc_start (s : State) (d : Dest) (lat : Nat) (v : Vec) (tag : Tag) :
    (s.start d lat v tag).cur.pc = s.cur.pc := s.cur_pc_onCur fun _ => rfl

theorem State.cur_touchLine (s : State) (line : Nat) (pol : Policy) : (s.touchLine line pol).cur = s.cur := by
  unfold State.touchLine
  dsimp only
  repeat' split
  all_goals rfl

/-- A fold over changes that keep the task on the stage keeps it. -/
theorem State.cur_foldl {α : Type} (f : State → α → State) (hf : ∀ s a, (f s a).cur = s.cur) (l : List α) (s : State) :
    (l.foldl f s).cur = s.cur := by
  induction l generalizing s with
  | nil => rfl
  | cons a l ih => rw [List.foldl_cons, ih, hf]

theorem State.cur_setPlot (s : State) (n : Nat) (p : Plot) : (s.setPlot n p).cur = s.cur := rfl

theorem State.cur_cacheWalk (s : State) (w : Who) (va : Nat) (es : List (Nat × Word)) :
    (s.cacheWalk w va es).cur = s.cur := by
  unfold State.cacheWalk
  dsimp only
  rw [State.cur_foldl (fun s (l : Nat × Nat) => s.touchLine l.2 ⟨1, w.tenant⟩) fun s l => by exact s.cur_touchLine l.2 _]
  exact State.cur_setPlot _ _ _

theorem State.cur_pc_resolved (s : State) (uid : Nat) (r : Resolved) : (s.resolved uid r).cur.pc = s.cur.pc := by
  have hwalks (w : Who) : (r.walks.foldl (fun s x => s.cacheWalk w x.1 x.2) s).cur = s.cur :=
    State.cur_foldl (fun s (x : Nat × List (Nat × Word)) => s.cacheWalk w x.1 x.2)
      (fun s x => by exact s.cur_cacheWalk w x.1 x.2) r.walks s
  unfold State.resolved
  cases s.task? uid with
  | none => rfl
  | some t =>
    cases r.ovf with
    | none => exact congrArg Task.pc (hwalks t.who)
    | some o =>
      refine (State.cur_pc_onTask _ uid ?_).trans (congrArg Task.pc (hwalks t.who))
      exact fun _ => rfl

theorem State.cur_mint (s : State) : s.mint.cur = s.cur := rfl

theorem State.cur_pc_reserve {s s' : State} {vec : Bool} {tag : Tag} (h : s.reserve vec tag = .ok s') :
    s'.cur.pc = s.cur.pc := by
  unfold State.reserve at h
  dsimp only at h
  repeat' split at h
  all_goals cases h
  all_goals simp only [State.cur_pc_resolved, State.cur_pc_onCur, State.cur_mint, implies_true]

/-- A result, wherever it goes, leaves the pc of the task on the stage. -/
theorem State.cur_pc_putReg {s s' : State} {n lat : Nat} {v : Vec} {tag : Tag} (h : s.putReg n lat v tag = .ok s') :
    s'.cur.pc = s.cur.pc := by
  unfold State.putReg at h
  dsimp only at h
  split at h
  case isTrue => cases h; rfl
  case isFalse =>
    split at h
    case isTrue =>
      cases hr : s.reserve (n == 118) tag with
      | error e => rw [hr] at h; cases h
      | ok s1 =>
        rw [hr] at h
        cases h
        rw [State.cur_pc_start, State.cur_pc_reserve hr]
    case isFalse =>
      cases hs : s.cur.streamAt n true with
      | none => rw [hs] at h; cases h; rw [State.cur_pc_start]
      | some b =>
        rw [hs] at h
        dsimp only at h
        repeat' split at h
        all_goals cases h
        all_goals simp only [State.cur_pc_start, State.cur_mint, State.cur_pc_pay, State.cur_pc_onCur, implies_true]

/-! ## Branches (R107, R108) -/

theorem exec_br (x : Syl) (s : State) : exec (.br x) s = execBr x s := rfl
theorem exec_bri (x : Syl) (s : State) : exec (.bri x) s = execBri x s := rfl
theorem exec_call (x : Syl) (s : State) : exec (.call x) s = execCall x s := rfl
theorem exec_ret (x : Syl) (s : State) : exec (.ret x) s = execRet x s := rfl
theorem exec_phase (x : Syl) (s : State) : exec (.phase x) s = execPhase x s := rfl
theorem exec_jtab (x : Syl) (s : State) : exec (.jtab x) s = execJtab x s := rfl
theorem exec_jtabRes (x : Syl) (s : State) : exec (.jtabRes x) s = execJtabRes x s := rfl

theorem State.branchTo_eq_taken (s : State) (target : Word) (n : Nat) : s.branchTo target n = s.taken target n := rfl

theorem State.behindBundle_eq (s : State) : s.behindBundle = s.cur.pc + BitVec.ofNat 64 s.stage.length := by
  rw [State.behindBundle, Stage.length, bundleLength, presentSlots, List.countP_eq_length_filter, Nat.mul_add]

/-! ## Tables of a plane (R112, R257, R259) -/

/-- The column of a phase's entries that its live rows look at: without rows the first entry present, else the first of
columns 0 to 6 that is present and holds the rows, and column 7 behind them (R26, R257). -/
def scheduleColumn (e : Nat → Word) (rows : Nat) : Option Nat :=
  if rows = 0 then (List.range 8).find? (fun c => (e c).getLsbD 63)
  else some (((List.range 7).find? (fun c => (e c).getLsbD 63 && rows ≤ 16 * 2 ^ c)).getD 7)

theorem find?_column_eq_some {e : Nat → Word} {rows c : Nat} :
    (List.range 7).find? (fun c => (e c).getLsbD 63 && rows ≤ 16 * 2 ^ c) = some c ↔
      c < 7 ∧ (e c).getLsbD 63 = true ∧ rows ≤ 16 * 2 ^ c ∧
        ∀ d, d < c → (e d).getLsbD 63 = false ∨ 16 * 2 ^ d < rows := by
  simp only [List.find?_range_eq_some, List.mem_range, Bool.and_eq_true, Bool.not_eq_true', Bool.and_eq_false_iff,
    decide_eq_true_eq, decide_eq_false_iff_not, Nat.not_le]
  exact ⟨fun ⟨⟨hp, hr⟩, hc, hlow⟩ => ⟨hc, hp, hr, hlow⟩, fun ⟨hc, hp, hr, hlow⟩ => ⟨⟨hp, hr⟩, hc, hlow⟩⟩

theorem find?_column_eq_none {e : Nat → Word} {rows : Nat} :
    (List.range 7).find? (fun c => (e c).getLsbD 63 && rows ≤ 16 * 2 ^ c) = none ↔
      ∀ d, d < 7 → (e d).getLsbD 63 = false ∨ 16 * 2 ^ d < rows := by
  simp only [List.find?_range_eq_none, Bool.not_eq_true', Bool.and_eq_false_iff, decide_eq_false_iff_not, Nat.not_le]

/-- The entry that a phase takes is the one of its column, where that is present. -/
theorem scheduleEntry_iff {e : Nat → Word} {rows c : Nat} :
    ScheduleEntry e rows c ↔ scheduleColumn e rows = some c ∧ (e c).getLsbD 63 = true := by
  unfold ScheduleEntry scheduleColumn
  by_cases hr : rows = 0
  · simp only [if_pos hr, List.find?_range_eq_some, List.mem_range, Bool.not_eq_true']
    exact ⟨fun ⟨hc, hp, hlow⟩ => ⟨⟨hp, hc, hlow⟩, hp⟩, fun ⟨⟨hp, hc, hlow⟩, _⟩ => ⟨hc, hp, hlow⟩⟩
  · rw [if_neg hr, if_neg hr, ← find?_column_eq_some, ← find?_column_eq_none, Option.some.injEq]
    have hpresent : (List.range 7).find? (fun c => (e c).getLsbD 63 && rows ≤ 16 * 2 ^ c) = some c →
        (e c).getLsbD 63 = true := fun h => (find?_column_eq_some.mp h).2.1
    cases hf : (List.range 7).find? (fun c => (e c).getLsbD 63 && rows ≤ 16 * 2 ^ c) with
    | none =>
      rw [Option.getD_none]
      constructor
      · rintro (h | ⟨h7, hp, -⟩)
        · cases h
        · exact ⟨h7.symm, hp⟩
      · exact fun ⟨h7, hp⟩ => .inr ⟨h7.symm, hp, rfl⟩
    | some d =>
      rw [hf, Option.some.injEq] at hpresent
      rw [Option.getD_some, Option.some.injEq]
      constructor
      · rintro (h | ⟨-, -, h⟩)
        · exact ⟨h, hpresent h⟩
        · cases h
      · exact fun ⟨h, _⟩ => .inl h

/-- The entry of a kernel in the kernel table. -/
def Plane.kernelEntry (p : Plane) (kernel : Nat) : Word := p.word (0x100 + 8 * (kernel % 64))

/-- The entry `c` of phase `j` of a kernel in the schedule table. -/
def Plane.phaseEntry (p : Plane) (kernel j c : Nat) : Word :=
  p.word (0x41000 + 8 * ((p.kernelEntry kernel).toNat / 2 ^ 32 % 2 ^ 10 + 8 * j + c))

/-- Whether a plane is valid and its kernel table holds phase `j` of a kernel. -/
def Plane.hasPhase (p : Plane) (kernel j : Nat) : Prop :=
  p.valid = true ∧ (p.kernelEntry kernel).getLsbD 63 = true ∧ j < (p.kernelEntry kernel).toNat / 2 ^ 48 % 2 ^ 8

theorem address_eq (w : Word) : address w = BitVec.ofNat 64 (getBits w 0 56) := by
  rw [address, getBits_zero_lo]

/-- The test that `Plane.phaseTarget` makes before it looks at the entries. -/
theorem Plane.hasPhase_iff {p : Plane} {kernel j : Nat} : p.hasPhase kernel j ↔
    ¬ (!p.valid || !(p.kernelEntry kernel).getLsbD 63 || decide (getBits (p.kernelEntry kernel) 48 8 ≤ j)) = true := by
  simp only [Plane.hasPhase, Bool.or_eq_true, Bool.not_eq_true', decide_eq_true_eq, not_or, Nat.not_le,
    Bool.not_eq_false, and_assoc]
  rfl

theorem Plane.phaseTarget_of_hasPhase {p : Plane} {kernel j : Nat} (rows : Nat) (h : p.hasPhase kernel j) :
    p.phaseTarget kernel j rows = (scheduleColumn (p.phaseEntry kernel j) rows).bind (fun c =>
      if (p.phaseEntry kernel j c).getLsbD 63 then some (address (p.phaseEntry kernel j c)) else none) := by
  simp only [address_eq]
  refine (if_neg (Plane.hasPhase_iff.mp h)).trans ?_
  split
  next hc =>
    have hcol : scheduleColumn (p.phaseEntry kernel j) rows = none := hc
    rw [hcol, Option.bind_none]
  next c hc =>
    have hcol : scheduleColumn (p.phaseEntry kernel j) rows = some c := hc
    rw [hcol, Option.bind_some]
    rfl

/-- The target of a phase is the address in the entry that it takes. -/
theorem Plane.phaseTarget_of_entry {p : Plane} {kernel j rows c : Nat} (h : p.hasPhase kernel j)
    (he : ScheduleEntry (p.phaseEntry kernel j) rows c) :
    p.phaseTarget kernel j rows = some (address (p.phaseEntry kernel j c)) := by
  obtain ⟨hcol, hpresent⟩ := scheduleEntry_iff.mp he
  rw [Plane.phaseTarget_of_hasPhase rows h, hcol, Option.bind_some, if_pos hpresent]

/-- There is no target without the phase, nor where it takes no entry. -/
theorem Plane.phaseTarget_eq_none {p : Plane} {kernel j rows : Nat}
    (he : p.hasPhase kernel j → ∀ c, ¬ ScheduleEntry (p.phaseEntry kernel j) rows c) :
    p.phaseTarget kernel j rows = none := by
  by_cases h : p.hasPhase kernel j
  · rw [Plane.phaseTarget_of_hasPhase rows h]
    cases hcol : scheduleColumn (p.phaseEntry kernel j) rows with
    | none => rfl
    | some c =>
      have habsent : ¬ (p.phaseEntry kernel j c).getLsbD 63 = true := fun hc => he h c (scheduleEntry_iff.mpr ⟨hcol, hc⟩)
      rw [Option.bind_some, if_neg habsent]
  · exact if_pos (Classical.not_not.mp (mt Plane.hasPhase_iff.mpr h))

theorem State.fragment_of_present {s : State} {i : Nat} (hv : s.curPlane.valid = true) (hi : i < 256)
    (he : (s.curPlane.word (0x43200 + 8 * i)).getLsbD 63 = true) :
    s.fragment i = .ok (s.taken (address (s.curPlane.word (0x43200 + 8 * i))) 2) := by
  have hguard : ¬ (!s.curPlane.valid || decide (256 ≤ i) || !(s.curPlane.word (0x43200 + 8 * i)).getLsbD 63) = true := by
    rw [hv, he, decide_eq_false (by omega)]
    decide
  rw [address_eq]
  exact if_neg hguard

theorem State.fragment_of_absent {s : State} {i : Nat} (h : s.curPlane.valid = false ∨ 256 ≤ i ∨
    (s.curPlane.word (0x43200 + 8 * i)).getLsbD 63 = false) : s.fragment i = .error (.fault 23 none) := by
  have hguard : (!s.curPlane.valid || decide (256 ≤ i) || !(s.curPlane.word (0x43200 + 8 * i)).getLsbD 63) = true := by
    simp only [Bool.or_eq_true, Bool.not_eq_true', decide_eq_true_eq, or_assoc]
    exact h
  exact if_pos hguard

/-- Settles O23: the four branches leave for their target, the link of `call` being written first, which keeps the pc; the
jumps through tables find the entry that their plane holds, or none and so the schedule-table fault. -/
theorem jumps : Obligations.Jumps := by
  unfold Obligations.Jumps
  refine ⟨⟨⟨?sourceKinds, rfl, rfl, rfl, rfl⟩, ?br, ?bri, ?call, ?ret⟩,
    ⟨?phase, ?phaseStops, ?jtab, ?jtabStops, ?jtabRes, ?jtabResStops⟩⟩
  case sourceKinds => rintro opc (rfl | rfl) <;> exact kinds_and_fem rfl rfl
  case br => exact acts_of_run exec_br fun _ _ _ _ hE => by rw [hE]; rfl
  case bri => exact acts_of_run exec_bri fun _ _ _ _ hE => by rw [hE]; rfl
  case ret => exact acts_of_run exec_ret fun _ _ _ _ hE => by rw [hE]; rfl
  case call =>
    refine acts_of_run exec_call fun x g s s' ⟨s2, hput, hE⟩ => ?_
    rw [State.behindBundle_eq] at hput
    rw [hput, hE, ← State.cur_pc_putReg hput]
    rfl
  case phase =>
    refine acts_of_run exec_phase fun x g s s' ⟨hv, hk, hj, c, hc, hE⟩ => ?_
    have htarget : s.curPlane.phaseTarget s.cur.job.kernel x.d.toNat (s.cur.csr.live.toNat % 2 ^ 11) = _ :=
      Plane.phaseTarget_of_entry ⟨hv, hk, hj⟩ hc
    rw [getBits_zero_lo, htarget, hE]
    rfl
  case phaseStops =>
    refine stops_of_run exec_phase fun x g s h => ?_
    have htarget : s.curPlane.phaseTarget s.cur.job.kernel x.d.toNat (s.cur.csr.live.toNat % 2 ^ 11) = none := by
      refine Plane.phaseTarget_eq_none fun ⟨hv, hk, hj⟩ => ?_
      rcases h with h | h | h | h
      · exact absurd hv (Bool.eq_false_iff.mp h)
      · exact absurd hk (Bool.eq_false_iff.mp h)
      · exact absurd hj (Nat.not_lt.mpr h)
      · exact h
    rw [getBits_zero_lo, htarget]
  case jtab =>
    exact acts_of_run exec_jtab fun x g s s' ⟨hv, hi, he, hE⟩ => by rw [hE, State.fragment_of_present hv hi he]
  case jtabStops => exact stops_of_run exec_jtab fun x g s h => State.fragment_of_absent h
  case jtabRes =>
    refine acts_of_run exec_jtabRes fun x g s s' ⟨hb, hv, he, hE⟩ => ?_
    rw [hb, hE]
    exact State.fragment_of_present hv (Nat.mod_lt _ (by decide)) he
  case jtabResStops =>
    refine stops_of_run exec_jtabRes fun x g s h => ?_
    cases hb : g.b.w.getLsbD 63 with
    | false => rfl
    | true =>
      rw [hb] at h
      rcases h with h | h | h
      · cases h
      · exact State.fragment_of_absent (.inl h)
      · exact State.fragment_of_absent (.inr (.inr h))

end Sys2Proof.Machine
end
